-- ==== Sys2Proof/Word.lean ====
section
/-! DEFINITION. The word types of the hub: octets, two-octet numbers, labels and stamps. -/

namespace Sys2Proof

/-- One octet (12, R182). -/
abbrev Byte := BitVec 8

/-- A number of two octets as a port sends it (12, R182). -/
abbrev Word16 := BitVec 16

/-- A label, line or local: 0 to 16383 (00, Table 0-2). -/
abbrev Label := BitVec 14

/-- A stamp: a count of milliseconds modulo 65536 (06, R93). -/
abbrev Stamp := BitVec 16

end Sys2Proof
end

