-- ==== Sys2Proof/Config.lean ====
section
/-! DEFINITION. The fixed figures of the part (00, Table 0-5) and the values the manual leaves open (free values, with no body). -/

namespace Sys2Proof.Config

/-- Buffers in the pool (04, R56). -/
def poolBuffers : Nat := 128
/-- Route entries (03, R35). -/
def routeEntries : Nat := 64
/-- Route entries one port may own (03, R35). -/
def routesPerPort : Nat := 32
/-- Publication slots (06, R91). -/
def slotCount : Nat := 24
/-- Label windows of a port (02, R26). -/
def windowCount : Nat := 8
/-- Entries of a transmit queue (05, R74). -/
def txDepth : Nat := 8
/-- Octets of a telegram's payload at most (01, Table 1-1). -/
def maxPayload : Nat := 16
/-- The count at which the line becomes DEGRADED (01, R8). -/
def errorLimit : Nat := 32
/-- Attempts ending ERROR at which a telegram is removed (05, R86; 06, R110). -/
def attemptLimit : Nat := 16
/-- The dwell timer's interval in ms (01, R5). -/
def dwellTime : Nat := 40
/-- The wake-acknowledge time in ms (08, R145). -/
def wakeAckTime : Nat := 250
/-- The general wake window in ms (08, R143). -/
def generalWakeWindow : Nat := 100
/-- The load time limit in ms (11, R177). -/
def loadLimit : Nat := 100
/-- Octets of the configuration image (11, Table 11-1). -/
def imageOctets : Nat := 262
/-- The longest slot period in ms (06, Table 6-1). -/
def maxPeriod : Nat := 60000
/-- Where the stale run and the overrun count stay (06, Table 6-1). -/
def runLimit : Nat := 255

/-- FREE VALUE (log 6). Two wake causes of one offer, ROUTE and GENERAL, fall together on one DOZING port, and
"either may be taken first" (08, R140): true when GENERAL is taken first. The argument is the draw's number. -/
opaque generalFirst : Nat → Bool

/-- FREE VALUE (log 5). Expiries that stand untaken when the next tick comes "fall in any order" (06, section 6.6; 01, R10):
the draw picks the one taken first. The argument is the draw's number. -/
opaque expiryChoice : Nat → Nat

/-- FREE VALUE (log 15). The covered run octet of a SLOT_READ response for a slot without a stand-in: Table 12-5 states
what the stand-in port reads when absent and does not state this octet. The argument is the draw's number. -/
opaque absentCoveredRun : Nat → Byte

end Sys2Proof.Config
end

