-- ==== Sys2Proof/Syntax.lean ====
section
/-! DEFINITION. The commands of the hub: one constructor for each row of spec/opcode_table.json, with the row's operands. -/

namespace Sys2Proof

/-- The four controller ports (00, Table 0-2). -/
inductive Port where
  | a | b | c | d
  deriving DecidableEq, Repr

/-- The sense of an edge on an input pin (10, R170). -/
inductive Sense where
  | rising | falling
  deriving DecidableEq, Repr

/-- The trigger pins (10, R175). -/
inductive TrigPin where
  | trig0 | trig1
  deriving DecidableEq, Repr

/-- The two kinds of device reset (11, R176). -/
inductive ResetKind where
  | powerOn | pin
  deriving DecidableEq, Repr

/-- The straps the loader samples at the end of a device reset, true for high (11, R176). -/
structure Straps where
  loaden : Bool
  adr1 : Bool
  adr0 : Bool
  deriving DecidableEq, Repr

/-- The board at the end of a device reset: the straps, and the ports whose chip select is asserted (11, R176; log 27). -/
structure PinsAtEnd where
  straps : Straps
  selected : List Port
  deriving DecidableEq, Repr

/-- One stretch of line activity: the period of the receiver in which it began (log 7), the octets the line unit assembled,
and whether its coding was broken or it ended inside an octet (12, R185). -/
structure LineActivity where
  began : Nat
  broken : Bool
  octets : List Byte
  deriving DecidableEq, Repr

/-- The commands. For the 44 commands of Table 12-1, `rest` is the complete octets clocked in after the command code:
the length octet, the parameters, the filler (12, R182, R183). -/
inductive Instr where
  /-- A transaction that carries no command; `octets` are all it clocked in (R150, R183). -/
  | transactionWithoutCommand (p : Port) (octets : List Byte)
  /-- A transaction whose octet 0 names no command (R183). -/
  | unknownCommand (p : Port) (code : Byte) (rest : List Byte)
  | attach (p : Port) (rest : List Byte)
  | detach (p : Port) (rest : List Byte)
  | portReset (p : Port) (rest : List Byte)
  | setPresence (p : Port) (rest : List Byte)
  | doze (p : Port) (rest : List Byte)
  | resume (p : Port) (rest : List Byte)
  | readStatus (p : Port) (rest : List Byte)
  | readId (p : Port) (rest : List Byte)
  | takeEvents (p : Port) (rest : List Byte)
  | setEventMask (p : Port) (rest : List Byte)
  | leaseTake (p : Port) (rest : List Byte)
  | leaseRelease (p : Port) (rest : List Byte)
  | setWindow (p : Port) (rest : List Byte)
  | readWindow (p : Port) (rest : List Byte)
  | routeAdd (p : Port) (rest : List Byte)
  | routeRemove (p : Port) (rest : List Byte)
  | routeRead (p : Port) (rest : List Byte)
  | routeList (p : Port) (rest : List Byte)
  | fetch (p : Port) (rest : List Byte)
  | flushRx (p : Port) (rest : List Byte)
  | setReserve (p : Port) (rest : List Byte)
  | readPool (p : Port) (rest : List Byte)
  | send (p : Port) (rest : List Byte)
  | sendWake (p : Port) (rest : List Byte)
  | txFlush (p : Port) (rest : List Byte)
  | txStatus (p : Port) (rest : List Byte)
  | slotCreate (p : Port) (rest : List Byte)
  | slotConfigure (p : Port) (rest : List Byte)
  | slotStart (p : Port) (rest : List Byte)
  | slotStop (p : Port) (rest : List Byte)
  | slotRefresh (p : Port) (rest : List Byte)
  | slotSetPeriod (p : Port) (rest : List Byte)
  | slotRemove (p : Port) (rest : List Byte)
  | slotRead (p : Port) (rest : List Byte)
  | standinAttach (p : Port) (rest : List Byte)
  | standinRefresh (p : Port) (rest : List Byte)
  | standinDetach (p : Port) (rest : List Byte)
  | lineSet (p : Port) (rest : List Byte)
  | lineOn (p : Port) (rest : List Byte)
  | lineOff (p : Port) (rest : List Byte)
  | lineResync (p : Port) (rest : List Byte)
  | readLine (p : Port) (rest : List Byte)
  | quietConfig (p : Port) (rest : List Byte)
  | quietClear (p : Port) (rest : List Byte)
  /-- The end of line activity (R2, R185); it is a reception end unless the reception was abandoned (R4, R7, R22, R23; log
  7). -/
  | receptionEnd (activity : LineActivity)
  /-- The end of the general-wake detector's window (R143). -/
  | generalWakeWindowEnd
  /-- The dwell timer's expiry (R7). -/
  | dwellExpiry
  /-- The silence timer's expiry (R10). -/
  | silenceExpiry
  /-- The line has been idle for the idle gap (R14; log 8). -/
  | transmissionStart
  /-- A contending node's telegram with label `winner` shares the start window (R3; log 9). -/
  | contentionLoss (winner : Label)
  /-- The line unit reads back a difference (R4). -/
  | echoError
  /-- The whole telegram was driven and read back unchanged (R15). -/
  | attemptSent
  /-- The end of slot `slot`'s expiry timer (R101). -/
  | slotExpiry (slot : Nat)
  /-- An edge on a trigger pin (R112, R175). -/
  | triggerEdge (pin : TrigPin) (sense : Sense)
  /-- An edge on QUIET (R170, R172). -/
  | quietEdge (sense : Sense)
  /-- The millisecond tick (R93). -/
  | timebaseTick
  /-- Port `p`'s presence timer's expiry (R158). -/
  | presenceExpiry (p : Port)
  /-- Port `p`'s wake timer's expiry (R142). -/
  | wakeTimerExpiry (p : Port)
  /-- Port `p`'s wake-acknowledge timer's expiry (R146). -/
  | wakeAcknowledgeExpiry (p : Port)
  /-- Power-on, or RESETn going low (R176). -/
  | deviceResetStart (kind : ResetKind)
  /-- The end of the device reset, with the board as it stands (R176). -/
  | deviceResetEnd (pins : PinsAtEnd)
  /-- The last octet of the image has been read; `image` is all of it (R178). -/
  | imageReadComplete (image : List Byte)
  /-- The image memory failed to acknowledge (R178). -/
  | missingAcknowledge
  /-- The load time limit (R177). -/
  | loadTimeLimit
  deriving DecidableEq, Repr

end Sys2Proof
end

