-- ==== Sys2Proof/Decode.lean ====
section
/-! DEFINITION. The decoder over the rows of spec/opcode_table.json that give bits. The table gives no row any bits. -/

namespace Sys2Proof

/-- The command that a word spells by the table's bits: no row of the table has any, so no word spells one. -/
def decodeTableWord (_nbits _w : Nat) : Option Instr := none

end Sys2Proof
end

