-- ==== Sys2Proof/WellFormed.lean ====
section
/-! DEFINITION. The well-formed commands: a term whose operands are those of the event its row names. -/

namespace Sys2Proof

/-- The command codes of Table 12-1 (12, R183). -/
def isCommandCode (code : Byte) : Bool :=
  let n := code.toNat
  (0x01 ≤ n && n ≤ 0x0C) || (0x10 ≤ n && n ≤ 0x11) || (0x18 ≤ n && n ≤ 0x1B) || (0x20 ≤ n && n ≤ 0x23) ||
    (0x28 ≤ n && n ≤ 0x2B) || (0x30 ≤ n && n ≤ 0x37) || (0x38 ≤ n && n ≤ 0x3A) || (0x40 ≤ n && n ≤ 0x44) ||
    (0x48 ≤ n && n ≤ 0x49)

/-- A transaction carries no command when its octet 0 is 00h or is not complete (12, R183). -/
def carriesNoCommand : List Byte → Bool
  | [] => true
  | code :: _ => code == 0

/-- A code that carries a command and is absent from Table 12-1 (12, R183). -/
def isUnknownCode (code : Byte) : Bool := code != 0 && !isCommandCode code

/-- The command is the event its row names: a transaction without a command carries none, an unknown command's code is
absent from Table 12-1, a slot number names a slot, an image has its 262 octets. -/
def Instr.wellFormed : Instr → Bool
  | .transactionWithoutCommand _ octets => carriesNoCommand octets
  | .unknownCommand _ code _ => isUnknownCode code
  | .slotExpiry slot => slot < Config.slotCount
  | .imageReadComplete image => image.length == Config.imageOctets
  | .attach _ _ | .detach _ _ | .portReset _ _ | .setPresence _ _ | .doze _ _ | .resume _ _ | .readStatus _ _
  | .readId _ _ | .takeEvents _ _ | .setEventMask _ _ | .leaseTake _ _ | .leaseRelease _ _ | .setWindow _ _
  | .readWindow _ _ | .routeAdd _ _ | .routeRemove _ _ | .routeRead _ _ | .routeList _ _ | .fetch _ _ | .flushRx _ _
  | .setReserve _ _ | .readPool _ _ | .send _ _ | .sendWake _ _ | .txFlush _ _ | .txStatus _ _ | .slotCreate _ _
  | .slotConfigure _ _ | .slotStart _ _ | .slotStop _ _ | .slotRefresh _ _ | .slotSetPeriod _ _ | .slotRemove _ _
  | .slotRead _ _ | .standinAttach _ _ | .standinRefresh _ _ | .standinDetach _ _ | .lineSet _ _ | .lineOn _ _
  | .lineOff _ _ | .lineResync _ _ | .readLine _ _ | .quietConfig _ _ | .quietClear _ _ | .receptionEnd _
  | .generalWakeWindowEnd | .dwellExpiry | .silenceExpiry | .transmissionStart | .contentionLoss _ | .echoError
  | .attemptSent | .triggerEdge _ _ | .quietEdge _ | .timebaseTick | .presenceExpiry _ | .wakeTimerExpiry _
  | .wakeAcknowledgeExpiry _ | .deviceResetStart _ | .deviceResetEnd _ | .missingAcknowledge | .loadTimeLimit => true

end Sys2Proof
end

