-- ==== Sys2Proof/Machine/State.lean ====
section
/-! DEFINITION. Everything the spec gives the hub to hold, as plain data, and the state after device reset. -/

namespace Sys2Proof

/-- Four like things, one for each port. -/
structure Quad (α : Type) where
  a : α
  b : α
  c : α
  d : α
  deriving DecidableEq, Repr

namespace Quad

/-- The thing of port `p`. -/
def get {α : Type} (q : Quad α) : Port → α
  | .a => q.a
  | .b => q.b
  | .c => q.c
  | .d => q.d

/-- `q` with the thing of port `p` replaced. -/
def set {α : Type} (q : Quad α) (p : Port) (x : α) : Quad α :=
  match p with
  | .a => { q with a := x }
  | .b => { q with b := x }
  | .c => { q with c := x }
  | .d => { q with d := x }

/-- The same thing for every port. -/
def all {α : Type} (x : α) : Quad α := ⟨x, x, x, x⟩

/-- Each thing changed by `f`, which may depend on the port. -/
def mapPort {α β : Type} (f : Port → α → β) (q : Quad α) : Quad β := ⟨f .a q.a, f .b q.b, f .c q.c, f .d q.d⟩

end Quad

/-- The ports in the order A, B, C, D (04, R64). -/
def Port.list : List Port := [.a, .b, .c, .d]

namespace Machine

/-! ## Telegrams (01, Table 1-1) -/

/-- The kind of a telegram (01, R1). -/
inductive Kind where
  | data | query | wake
  deriving DecidableEq, Repr

/-- A telegram without its check, which the line unit makes and tests. Its length is the payload's. -/
structure Telegram where
  kind : Kind
  label : Label
  payload : List Byte
  deriving DecidableEq, Repr

/-! ## Label windows (02, Table 2-1) -/

/-- One label window. -/
structure Window where
  enabled : Bool
  mask : Label
  base : Label
  map : Label
  allowData : Bool
  allowQuery : Bool
  allowSlot : Bool
  deriving DecidableEq, Repr

/-! ## The route table (03, Table 3-1) -/

/-- A subset of the three kinds. -/
structure KindSet where
  data : Bool
  query : Bool
  wake : Bool
  deriving DecidableEq, Repr

/-- The length test of a route entry. -/
inductive LengthTest where
  | any
  | exact (n : Nat)
  deriving DecidableEq, Repr

/-- The data test of a route entry, with the eight-octet mask and value it uses. -/
inductive DataTest where
  | none
  | anySet (mask : List Byte)
  | equal (mask value : List Byte)
  deriving DecidableEq, Repr

/-- The action of a route entry. -/
inductive Action where
  | deliver | discard
  deriving DecidableEq, Repr

/-- A live route entry. -/
structure RouteEntry where
  owner : Port
  rank : Nat
  labelBase : Label
  labelMask : Label
  kinds : KindSet
  lengthTest : LengthTest
  dataTest : DataTest
  action : Action
  hold : Bool
  wake : Bool
  localBase : Option Label
  deriving DecidableEq, Repr

/-! ## Receive queues and the pool (04, Tables 4-1 and 4-2) -/

/-- The overflow policy of a receive queue. -/
inductive Policy where
  | dropNewest | dropOldest
  deriving DecidableEq, Repr

/-- A receive record. The LOCAL mark is set exactly when the source port is present (Table 4-2), so it is stored once,
as the presence of `source`. -/
structure RxRecord where
  kind : Kind
  lineLabel : Label
  localLabel : Label
  payload : List Byte
  routeIndex : Nat
  stamp : Stamp
  wakeMark : Bool
  heldMark : Bool
  source : Option Port
  deriving DecidableEq, Repr

/-- One port's receive queue, head first, and its pool settings. -/
structure RxQueue where
  queue : List RxRecord
  reserve : Nat
  limit : Nat
  policy : Policy
  deriving DecidableEq, Repr

/-! ## Transmit queues (05, Table 5-1) -/

/-- A transmit queue entry. -/
structure TxEntry where
  kind : Kind
  lineLabel : Label
  localLabel : Label
  payload : List Byte
  attempts : Nat
  stamp : Stamp
  deriving DecidableEq, Repr

/-- One port's transmit queue, head first, and the head's candidacy moment (05, R81; log 13). -/
structure TxQueue where
  entries : List TxEntry
  headSince : Option Nat
  deriving DecidableEq, Repr

/-! ## Publication slots (06, Tables 6-1 and 6-2; 07, Table 7-1) -/

/-- Whether a slot expires on every period or once per start. -/
inductive SlotMode where
  | repeating | oneShot
  deriving DecidableEq, Repr

/-- What begins a slot's expiries. -/
inductive StartSource where
  | command
  | trigger (pin : TrigPin)
  deriving DecidableEq, Repr

/-- The trigger edges a slot acts on. -/
inductive SlotEdge where
  | rising | falling | both
  deriving DecidableEq, Repr

/-- What an edge does to a RUNNING slot. -/
inductive TriggerAction where
  | start | reanchor
  deriving DecidableEq, Repr

/-- The state a HALTED slot returns to. -/
inductive HeldState where
  | armed | running | finishing
  deriving DecidableEq, Repr

/-- The state of a live slot; the held state stands in HALTED alone. -/
inductive SlotState where
  | stopped | armed | running | finishing
  | halted (held : HeldState)
  deriving DecidableEq, Repr

/-- A due entry, with its candidacy moment (05, R81; log 13). -/
structure DueEntry where
  payload : List Byte
  stamp : Stamp
  attempts : Nat
  candidacy : Nat
  deriving DecidableEq, Repr

/-- A stand-in record. -/
structure StandIn where
  port : Port
  payload : List Byte
  coveredRun : Nat
  deriving DecidableEq, Repr

/-- A live slot. `nextExpiry` holds the ticks left to the next expiry (log 5). -/
structure Slot where
  owner : Port
  lineLabel : Label
  localLabel : Label
  mode : SlotMode
  source : StartSource
  edge : Option SlotEdge
  trigAction : TriggerAction
  period : Nat
  offset : Nat
  active : List Byte
  pendingPayload : Option (List Byte)
  pendingPeriod : Option Nat
  lastSent : Option (List Byte)
  freshRequired : Bool
  answerQueries : Bool
  takeoverAfter : Nat
  staleRun : Nat
  overruns : Nat
  state : SlotState
  nextExpiry : Option Nat
  due : Option DueEntry
  standIn : Option StandIn
  deriving DecidableEq, Repr

/-! ## The line unit (01) -/

/-- The line states (01, Table 1-2). -/
inductive LineState where
  | off | search | synced | degraded
  deriving DecidableEq, Repr

/-- The rate modes. -/
inductive RateMode where
  | auto | fixed
  deriving DecidableEq, Repr

/-- The line rates in kbit/s. -/
inductive Rate where
  | k100 | k200 | k400 | k800
  deriving DecidableEq, Repr

/-- The line modes (01, Table 1-3). -/
inductive LineMode where
  | normal | listenOnly | loopback
  deriving DecidableEq, Repr

/-- The source of the telegram in flight: a queue head, a due entry, or none once cut (01, R14, R17). -/
inductive Source where
  | queueHead (p : Port)
  | dueEntry (slot : Nat)
  | none
  deriving DecidableEq, Repr

/-- The in-flight record (01, R14). -/
structure InFlight where
  telegram : Telegram
  source : Source
  origin : Port
  deriving DecidableEq, Repr

/-- The line unit. A timer holds the ticks left, or none when stopped (log 5). `receiverPeriod` numbers the periods in which
the receiver listens undisturbed: each event that abandons a reception in progress begins a new one (01, R4, R7, R22, R23;
log 7). -/
structure LineUnit where
  state : LineState
  rateMode : RateMode
  configuredRate : Rate
  trialRate : Rate
  dwellTimer : Option Nat
  cleanCount : Nat
  errorCount : Nat
  silenceTime : Nat
  silenceTimer : Option Nat
  silentFlag : Bool
  mode : LineMode
  pendingMode : Option LineMode
  inFlight : Option InFlight
  lease : Option Port
  receiverPeriod : Nat
  deriving DecidableEq, Repr

/-! ## Port units (08, 09) -/

/-- The port states (09, Table 9-2). -/
inductive PortState where
  | detached | active | dozing | waking
  deriving DecidableEq, Repr

/-- The detach causes (09, Table 9-3). -/
inductive DetachCause where
  | none | power | pin | requested | presence | reset | wakeUnanswered
  deriving DecidableEq, Repr

/-- The result codes, in the order of Table 9-1. -/
inductive ResultCode where
  | ok | idle | notReady | unknown | format | notAttached | asleep | wrongState | noWindow | notPermitted
  | labelReserved | labelInUse | queueFull | queueEmpty | tableFull | portLimit | slotFull | badIndex | notOwner
  | badPattern | outOfRange | leaseHeld | noLease | reserveUnavailable | standinTaken | quietActive
  deriving DecidableEq, Repr

/-- A response: its result code and its data octets (12, R182). -/
structure Response where
  code : ResultCode
  data : List Byte
  deriving DecidableEq, Repr

/-- A subset of the wake kinds (08, Table 8-1). -/
structure WakeSet where
  selective : Bool
  general : Bool
  timer : Bool
  deriving DecidableEq, Repr

/-- The wake causes; ROUTE carries its entry number (08, Table 8-3). -/
inductive WakeCause where
  | route (entry : Nat)
  | general
  | timer
  | line
  | pending
  deriving DecidableEq, Repr

/-- A wake record whose cause is not NONE (08, Table 8-2). -/
structure WakeRecord where
  cause : WakeCause
  stamp : Stamp
  deriving DecidableEq, Repr

/-- A port's loaded defaults (02, R33; 09, R157; 11, R179). -/
structure PortDefaults where
  windows : List Window
  reserve : Nat
  limit : Nat
  policy : Policy
  presenceInterval : Nat
  mask : BitVec 16
  deriving DecidableEq, Repr

/-- A port unit. `staleSelect` marks a chip select that was asserted when the device reset ended and carries no command (11,
R176; log 27). -/
structure PortUnit where
  state : PortState
  detachCause : DetachCause
  holder : Response
  sdo : List Byte
  flags : BitVec 16
  mask : BitVec 16
  presenceInterval : Nat
  presenceTimer : Option Nat
  wakeSet : WakeSet
  wakePeriod : Option Nat
  wakeTimer : Option Nat
  ackTimer : Option Nat
  wakeRecord : Option WakeRecord
  defaults : PortDefaults
  staleSelect : Bool
  deriving DecidableEq, Repr

/-! ## The general-wake detector, the quiet input, the loader -/

/-- The telegram the general-wake detector remembers, and the ticks left of its window (08, R143). -/
structure Remembered where
  stamp : Stamp
  excluded : Option Port
  left : Nat
  deriving DecidableEq, Repr

/-- The quiet edge selections (10, Table 10-1). -/
inductive QuietSelection where
  | none | rising | falling | both
  deriving DecidableEq, Repr

/-- The quiet input; `pin` is the level of the QUIET pin, true for high (10, R170; log 2). -/
structure QuietInput where
  selection : QuietSelection
  latch : Bool
  pin : Bool
  deriving DecidableEq, Repr

/-- The loader states (11, R177). -/
inductive LoaderState where
  | loading | ready
  deriving DecidableEq, Repr

/-- A phase of a transfer that the loader makes on the image memory's I2C bus: it addresses the memory, for reading or for
writing, sends an octet, or reads one and acknowledges it or not (11, R177). -/
inductive BusPhase where
  | address (memory : Byte) (reading : Bool)
  | send (octet : Byte)
  | read (acknowledged : Bool)
  deriving DecidableEq, Repr

/-- The loader; `transfer` is the transfer under way on the I2C bus, its phases in order, and empty when the loader has released
the bus (11, R176, R177). -/
structure Loader where
  state : LoaderState
  loadFault : Bool
  timer : Option Nat
  straps : Straps
  transfer : List BusPhase
  deriving DecidableEq, Repr

/-! ## The machine -/

/-- The hub. `nextCandidacy` numbers the candidacy events (log 13). `freeIndex` counts the free values drawn and is the
model's own (log 16). `pending` is the queue of waiting commands, first in, first out (log 3). -/
structure State where
  ports : Quad PortUnit
  windows : Quad (List Window)
  routes : List (Option RouteEntry)
  rx : Quad RxQueue
  tx : Quad TxQueue
  slots : List (Option Slot)
  line : LineUnit
  detector : Option Remembered
  quiet : QuietInput
  loader : Loader
  stamp : Stamp
  resetting : Option ResetKind
  nextCandidacy : Nat
  freeIndex : Nat
  pending : List Instr
  deriving DecidableEq, Repr

/-- The faults. The manual describes no event that stops the hub, so there is none (log 19). -/
inductive Fault where
  deriving DecidableEq, Repr

/-- The refusals. -/
inductive Refusal where
  /-- Raised by an arm of `exec` whose command has no meaning yet; safe: nothing is said of it. No arm raises it. -/
  | notModelled (mnemonic : String)
  deriving DecidableEq, Repr

/-- What a step answers. -/
abbrev Out := Host.Outcome State Fault Refusal

/-! ## Reset values -/

/-- Window 0 of the built-in defaults: the identity translation with all permissions (02, R33). -/
def Window.identity : Window := ⟨true, 0, 0, 0, true, true, true⟩

/-- Windows 1 to 7 of the built-in defaults: disabled, all fields 0 (02, R33). -/
def Window.blank : Window := ⟨false, 0, 0, 0, false, false, false⟩

/-- The built-in default windows of a port (02, R33). -/
def defaultWindows : List Window := Window.identity :: List.replicate 7 Window.blank

/-- The built-in defaults of a port (11, Table 11-2). Every flag enabled is the mask FFFFh: a position of 1 enables (log 30). -/
def PortDefaults.builtIn : PortDefaults := ⟨defaultWindows, 16, 64, .dropNewest, 0, 0xFFFF#16⟩

/-- The empty wake set. -/
def WakeSet.empty : WakeSet := ⟨false, false, false⟩

/-- The empty response holder, read as IDLE with no data (09, R150). -/
def Response.empty : Response := ⟨.idle, []⟩

/-- A port unit at the end of a device reset whose cause is `cause` (08, R133; 09, R150, R152, R154, R162; 11, Table 11-2; the
mask that enables every flag, log 30). -/
def PortUnit.atReset (cause : DetachCause) : PortUnit :=
  { state := .detached, detachCause := cause, holder := Response.empty, sdo := [], flags := 0, mask := 0xFFFF#16,
    presenceInterval := 0, presenceTimer := none, wakeSet := WakeSet.empty, wakePeriod := none, wakeTimer := none,
    ackTimer := none, wakeRecord := none, defaults := PortDefaults.builtIn, staleSelect := false }

/-- The line unit after device reset with the built-in defaults (01, R25). -/
def LineUnit.atReset : LineUnit :=
  { state := .off, rateMode := .auto, configuredRate := .k400, trialRate := .k400, dwellTimer := none, cleanCount := 0,
    errorCount := 0, silenceTime := 1000, silenceTimer := none, silentFlag := false, mode := .normal,
    pendingMode := none, inFlight := none, lease := none, receiverPeriod := 0 }

/-- A receive queue after device reset with the built-in defaults (04, R72). -/
def RxQueue.atReset : RxQueue := ⟨[], 16, 64, .dropNewest⟩

/-- A transmit queue after device reset (05, R90). -/
def TxQueue.atReset : TxQueue := ⟨[], none⟩

/-- The straps of `State.reset`: all low (DESIGN CHOICE, log 1). -/
def Straps.low : Straps := ⟨false, false, false⟩

/-- The hub right after a device reset by power-on with LOADEN low: the built-in defaults are installed and the loader is
READY in the same step (11, R176, R177, R180; log 1). -/
def State.reset : State :=
  { ports := Quad.all (PortUnit.atReset .power), windows := Quad.all defaultWindows,
    routes := List.replicate Config.routeEntries none, rx := Quad.all RxQueue.atReset, tx := Quad.all TxQueue.atReset,
    slots := List.replicate Config.slotCount none, line := LineUnit.atReset, detector := none,
    quiet := ⟨.none, false, false⟩, loader := ⟨.ready, false, none, Straps.low, []⟩, stamp := 0, resetting := none,
    nextCandidacy := 0, freeIndex := 0, pending := [] }

end Machine

end Sys2Proof
end

