-- ==== Sys2Proof/Machine/Operands.lean ====
section
/-! DEFINITION. Octets, field codes, the command table and the telegram on the line (12, R182 to R185). -/

namespace Sys2Proof.Machine

/-! ## Octets and two-octet numbers (R182) -/

/-- The octet of a count or code. -/
def oct (n : Nat) : Byte := BitVec.ofNat 8 n

/-- Octet `k` of a list of octets. -/
def octetAt (ps : List Byte) (k : Nat) : Byte := ps.getD k 0

/-- The number whose most significant octet is octet `k` (R182). -/
def wordAt (ps : List Byte) (k : Nat) : Word16 := octetAt ps k ++ octetAt ps (k + 1)

/-- The two octets of a number, most significant first (R182). -/
def octets2 (w : Word16) : List Byte := [w.extractLsb' 8 8, w.extractLsb' 0 8]

/-- The two octets of a count. -/
def count2 (n : Nat) : List Byte := octets2 (BitVec.ofNat 16 n)

/-- The two octets of a label. -/
def label2 (l : Label) : List Byte := octets2 (l.setWidth 16)

/-- The label a two-octet number names, if it is at most 16383. -/
def labelOf (w : Word16) : Option Label := if w.toNat < 16384 then some (w.setWidth 14) else none

/-- The octet of a flag: 0 for no, 1 for yes (Table 12-3). -/
def flagOctet (b : Bool) : Byte := if b then 1 else 0

/-- The octet of a set: bit 0 is its first member (R182). -/
def setOctet (b0 b1 b2 b3 : Bool) : Byte :=
  flagOctet b0 ||| flagOctet b1 <<< 1 ||| flagOctet b2 <<< 2 ||| flagOctet b3 <<< 3

/-- The octet that reads none or absent (Table 12-3). -/
def absent : Byte := 0xFF

/-! ## Field codes (Table 12-3) -/

/-- A flag of one octet. -/
def flagOf (b : Byte) : Option Bool :=
  match b.toNat with
  | 0 => some false
  | 1 => some true
  | _ => none

def Kind.code : Kind → Byte
  | .data => 0
  | .query => 1
  | .wake => 2

def Kind.ofCode (b : Byte) : Option Kind :=
  match b.toNat with
  | 0 => some .data
  | 1 => some .query
  | 2 => some .wake
  | _ => none

def portCode : Port → Byte
  | .a => 0
  | .b => 1
  | .c => 2
  | .d => 3

def portOf (b : Byte) : Option Port :=
  match b.toNat with
  | 0 => some .a
  | 1 => some .b
  | 2 => some .c
  | 3 => some .d
  | _ => none

/-- A port letter, or none or absent. -/
def portOptCode : Option Port → Byte
  | some p => portCode p
  | none => absent

def PortState.code : PortState → Byte
  | .detached => 0
  | .active => 1
  | .dozing => 2
  | .waking => 3

def DetachCause.code : DetachCause → Byte
  | .none => 0
  | .power => 1
  | .pin => 2
  | .requested => 3
  | .presence => 4
  | .reset => 5
  | .wakeUnanswered => 6

def LineState.code : LineState → Byte
  | .off => 0
  | .search => 1
  | .synced => 2
  | .degraded => 3

def RateMode.code : RateMode → Byte
  | .auto => 0
  | .fixed => 1

def RateMode.ofCode (b : Byte) : Option RateMode :=
  match b.toNat with
  | 0 => some .auto
  | 1 => some .fixed
  | _ => none

def Rate.code : Rate → Byte
  | .k100 => 0
  | .k200 => 1
  | .k400 => 2
  | .k800 => 3

def Rate.ofCode (b : Byte) : Option Rate :=
  match b.toNat with
  | 0 => some .k100
  | 1 => some .k200
  | 2 => some .k400
  | 3 => some .k800
  | _ => none

def LineMode.code : LineMode → Byte
  | .normal => 0
  | .listenOnly => 1
  | .loopback => 2

def LineMode.ofCode (b : Byte) : Option LineMode :=
  match b.toNat with
  | 0 => some .normal
  | 1 => some .listenOnly
  | 2 => some .loopback
  | _ => none

def QuietSelection.ofCode (b : Byte) : Option QuietSelection :=
  match b.toNat with
  | 0 => some .none
  | 1 => some .rising
  | 2 => some .falling
  | 3 => some .both
  | _ => Option.none

/-- The slot edge codes; 0 means no edge (Table 12-3). -/
def SlotEdge.optCode : Option SlotEdge → Byte
  | none => 0
  | some .rising => 1
  | some .falling => 2
  | some .both => 3

/-- A slot edge parameter: none where the code is absent from the table, no edge for 0. -/
def SlotEdge.ofCode (b : Byte) : Option (Option SlotEdge) :=
  match b.toNat with
  | 0 => some none
  | 1 => some (some .rising)
  | 2 => some (some .falling)
  | 3 => some (some .both)
  | _ => none

def Policy.code : Policy → Byte
  | .dropNewest => 0
  | .dropOldest => 1

def Policy.ofCode (b : Byte) : Option Policy :=
  match b.toNat with
  | 0 => some .dropNewest
  | 1 => some .dropOldest
  | _ => none

def Action.code : Action → Byte
  | .deliver => 0
  | .discard => 1

def Action.ofCode (b : Byte) : Option Action :=
  match b.toNat with
  | 0 => some .deliver
  | 1 => some .discard
  | _ => none

def LengthTest.code : LengthTest → Byte
  | .any => absent
  | .exact n => oct n

/-- A length test: 0 to 16 EXACT, FFh ANY (Table 12-3, R184). -/
def LengthTest.ofCode (b : Byte) : Option LengthTest :=
  if b = absent then some .any else if b.toNat ≤ Config.maxPayload then some (.exact b.toNat) else none

def SlotMode.code : SlotMode → Byte
  | .repeating => 0
  | .oneShot => 1

def SlotMode.ofCode (b : Byte) : Option SlotMode :=
  match b.toNat with
  | 0 => some .repeating
  | 1 => some .oneShot
  | _ => none

def StartSource.code : StartSource → Byte
  | .command => 0
  | .trigger .trig0 => 1
  | .trigger .trig1 => 2

def StartSource.ofCode (b : Byte) : Option StartSource :=
  match b.toNat with
  | 0 => some .command
  | 1 => some (.trigger .trig0)
  | 2 => some (.trigger .trig1)
  | _ => none

def TriggerAction.code : TriggerAction → Byte
  | .start => 0
  | .reanchor => 1

def TriggerAction.ofCode (b : Byte) : Option TriggerAction :=
  match b.toNat with
  | 0 => some .start
  | 1 => some .reanchor
  | _ => none

def SlotState.code : SlotState → Byte
  | .stopped => 0
  | .armed => 1
  | .running => 2
  | .finishing => 3
  | .halted _ => 4

/-- The held state's code, FFh outside HALTED (Table 12-3). -/
def SlotState.heldCode : SlotState → Byte
  | .halted .armed => 1
  | .halted .running => 2
  | .halted .finishing => 3
  | _ => absent

def WakeSet.octet (w : WakeSet) : Byte := setOctet w.selective w.general w.timer false

/-- A wake set octet with no bit outside the three members (R134, R184). -/
def WakeSet.ofOctet (b : Byte) : Option WakeSet :=
  if b.toNat < 8 then some ⟨b.getLsbD 0, b.getLsbD 1, b.getLsbD 2⟩ else none

def KindSet.octet (k : KindSet) : Byte := setOctet k.data k.query k.wake false

/-- A kind set octet with no bit outside the three kinds (R49, R184). -/
def KindSet.ofOctet (b : Byte) : Option KindSet :=
  if b.toNat < 8 then some ⟨b.getLsbD 0, b.getLsbD 1, b.getLsbD 2⟩ else none

/-- The wake record as RESUME and READ_STATUS give it: cause, stamp, entry (Table 12-2 and the paragraph after it). -/
def wakeRecordOctets : Option WakeRecord → List Byte
  | none => [0, 0, 0, absent]
  | some ⟨.route entry, stamp⟩ => 1 :: octets2 stamp ++ [oct entry]
  | some ⟨.general, stamp⟩ => 2 :: octets2 stamp ++ [absent]
  | some ⟨.timer, stamp⟩ => 3 :: octets2 stamp ++ [absent]
  | some ⟨.line, stamp⟩ => 4 :: octets2 stamp ++ [absent]
  | some ⟨.pending, stamp⟩ => 5 :: octets2 stamp ++ [absent]

/-! ## Windows as octets -/

/-- A window's attributes octet (Table 12-3). -/
def Window.attributes (w : Window) : Byte := setOctet w.enabled w.allowData w.allowQuery w.allowSlot

/-- A window's seven octets: base, mask, map, attributes (Table 12-1, Table 12-7). -/
def Window.octets (w : Window) : List Byte := label2 w.base ++ label2 w.mask ++ label2 w.map ++ [w.attributes]

/-- The window that the seven octets from octet `k` give; none when a base, mask or map is above 16383 or the attributes
name anything beyond their four members (R30, R178, R184). -/
def windowAt (ps : List Byte) (k : Nat) : Option Window :=
  match labelOf (wordAt ps k), labelOf (wordAt ps (k + 2)), labelOf (wordAt ps (k + 4)) with
  | some base, some mask, some map =>
    let at' := octetAt ps (k + 6)
    if at'.toNat < 16 then
      some ⟨at'.getLsbD 0, mask, base, map, at'.getLsbD 1, at'.getLsbD 2, at'.getLsbD 3⟩
    else none
  | _, _, _ => none

/-- `value` has no bit outside `mask`. -/
def within (value mask : Label) : Bool := value &&& ~~~mask == 0

/-- The base and the map have no bits outside the mask (R26). -/
def Window.inMask (w : Window) : Bool := within w.base w.mask && within w.map w.mask

/-! ## Result codes (Table 9-1, R182) -/

def ResultCode.code : ResultCode → Byte
  | .ok => 0x00
  | .idle => 0x01
  | .notReady => 0x02
  | .unknown => 0x03
  | .format => 0x04
  | .notAttached => 0x05
  | .asleep => 0x06
  | .wrongState => 0x07
  | .noWindow => 0x08
  | .notPermitted => 0x09
  | .labelReserved => 0x0A
  | .labelInUse => 0x0B
  | .queueFull => 0x0C
  | .queueEmpty => 0x0D
  | .tableFull => 0x0E
  | .portLimit => 0x0F
  | .slotFull => 0x10
  | .badIndex => 0x11
  | .notOwner => 0x12
  | .badPattern => 0x13
  | .outOfRange => 0x14
  | .leaseHeld => 0x15
  | .noLease => 0x16
  | .reserveUnavailable => 0x17
  | .standinTaken => 0x18
  | .quietActive => 0x19

/-- The octets of a response: result code, data length, data (R182). -/
def Response.octets (r : Response) : List Byte := r.code.code :: oct r.data.length :: r.data

/-- The first `n` octets the hub clocks out: the holder's octets, then FFh (R183). -/
def Response.clockedOut (r : Response) (n : Nat) : List Byte :=
  r.octets.take n ++ List.replicate (n - r.octets.length) 0xFF

/-! ## The command table (Table 12-1) -/

/-- The commands of Table 12-1. -/
inductive Command where
  | attach | detach | portReset | setPresence | doze | resume | readStatus | readId | takeEvents | setEventMask
  | leaseTake | leaseRelease
  | setWindow | readWindow
  | routeAdd | routeRemove | routeRead | routeList
  | fetch | flushRx | setReserve | readPool
  | send | sendWake | txFlush | txStatus
  | slotCreate | slotConfigure | slotStart | slotStop | slotRefresh | slotSetPeriod | slotRemove | slotRead
  | standinAttach | standinRefresh | standinDetach
  | lineSet | lineOn | lineOff | lineResync | readLine
  | quietConfig | quietClear
  deriving DecidableEq, Repr

/-- The command a code names; none for a code absent from Table 12-1. -/
def Command.ofCode (b : Byte) : Option Command :=
  match b.toNat with
  | 0x01 => some .attach
  | 0x02 => some .detach
  | 0x03 => some .portReset
  | 0x04 => some .setPresence
  | 0x05 => some .doze
  | 0x06 => some .resume
  | 0x07 => some .readStatus
  | 0x08 => some .readId
  | 0x09 => some .takeEvents
  | 0x0A => some .setEventMask
  | 0x0B => some .leaseTake
  | 0x0C => some .leaseRelease
  | 0x10 => some .setWindow
  | 0x11 => some .readWindow
  | 0x18 => some .routeAdd
  | 0x19 => some .routeRemove
  | 0x1A => some .routeRead
  | 0x1B => some .routeList
  | 0x20 => some .fetch
  | 0x21 => some .flushRx
  | 0x22 => some .setReserve
  | 0x23 => some .readPool
  | 0x28 => some .send
  | 0x29 => some .sendWake
  | 0x2A => some .txFlush
  | 0x2B => some .txStatus
  | 0x30 => some .slotCreate
  | 0x31 => some .slotConfigure
  | 0x32 => some .slotStart
  | 0x33 => some .slotStop
  | 0x34 => some .slotRefresh
  | 0x35 => some .slotSetPeriod
  | 0x36 => some .slotRemove
  | 0x37 => some .slotRead
  | 0x38 => some .standinAttach
  | 0x39 => some .standinRefresh
  | 0x3A => some .standinDetach
  | 0x40 => some .lineSet
  | 0x41 => some .lineOn
  | 0x42 => some .lineOff
  | 0x43 => some .lineResync
  | 0x44 => some .readLine
  | 0x48 => some .quietConfig
  | 0x49 => some .quietClear
  | _ => none

/-- The parameter length a command requires: fixed, or a fixed part whose last octet is the payload length L, and L
octets more (R183). -/
inductive FrameLen where
  | fixed (k : Nat)
  | payload (k : Nat)
  deriving DecidableEq, Repr

/-- The parameter octets have the length the command requires (R183). -/
def FrameLen.accepts : FrameLen → List Byte → Bool
  | .fixed k, ps => ps.length == k
  | .payload k, ps => k ≤ ps.length && ps.length == k + (octetAt ps (k - 1)).toNat

/-- The parameter lengths of Table 12-1. -/
def Command.frame : Command → FrameLen
  | .attach | .detach | .portReset | .resume | .readStatus | .readId | .takeEvents | .leaseTake | .leaseRelease => .fixed 0
  | .setPresence | .setEventMask => .fixed 2
  | .doze => .fixed 3
  | .setWindow => .fixed 8
  | .readWindow => .fixed 1
  | .routeAdd => .fixed 28
  | .routeRemove | .routeRead => .fixed 1
  | .routeList => .fixed 0
  | .fetch | .flushRx | .readPool => .fixed 0
  | .setReserve => .fixed 4
  | .send => .payload 4
  | .sendWake | .txFlush | .txStatus => .fixed 0
  | .slotCreate => .payload 7
  | .slotConfigure => .fixed 9
  | .slotStart => .fixed 1
  | .slotStop => .fixed 2
  | .slotRefresh => .payload 2
  | .slotSetPeriod => .fixed 3
  | .slotRemove | .slotRead => .fixed 1
  | .standinAttach => .payload 4
  | .standinRefresh => .payload 2
  | .standinDetach => .fixed 1
  | .lineSet => .fixed 5
  | .lineOn | .lineOff | .lineResync | .readLine => .fixed 0
  | .quietConfig => .fixed 1
  | .quietClear => .fixed 0

/-- The parameters of a transaction whose octets after the command code are `rest`; none where it is malformed: it ends
before octet 1 or before octet n + 1, or n is not the length the command requires. Octets beyond the envelope are filler
(R183). -/
def parameters (len : FrameLen) : List Byte → Option (List Byte)
  | [] => none
  | n :: more =>
    if more.length < n.toNat then none
    else if len.accepts (more.take n.toNat) then some (more.take n.toNat) else none

/-- The octets after the command code that carry the parameters `ps` (R182). -/
def envelope (ps : List Byte) : List Byte := oct ps.length :: ps

/-- The state check: the result that refuses command `c` in port state `st`, if any (09, Table 9-2, R153). -/
def stateCheck (c : Command) : PortState → Option ResultCode
  | .detached =>
    match c with
    | .attach | .readId | .readStatus | .portReset | .setWindow | .readWindow => none
    | _ => some .notAttached
  | .active =>
    match c with
    | .attach | .resume => some .wrongState
    | _ => none
  | .dozing | .waking =>
    match c with
    | .resume | .readStatus | .readId | .portReset => none
    | _ => some .asleep

/-! ## The telegram on the line (Table 12-6, R185) -/

/-- One bit shifted through the check register with the generator x^16 + x^12 + x^5 + 1 (R185). -/
def crcBit (reg : Word16) (bit : Bool) : Word16 :=
  if (reg.getLsbD 15 ^^ bit) = true then (reg <<< 1) ^^^ 0x1021#16 else reg <<< 1

/-- One octet, most significant bit first (R185). -/
def crcOctet (reg : Word16) (b : Byte) : Word16 :=
  [7, 6, 5, 4, 3, 2, 1, 0].foldl (fun r k => crcBit r (b.getLsbD k)) reg

/-- The check sequence over a list of octets; the register is preset to FFFFh (R185). -/
def checkSequence (bs : List Byte) : Word16 := bs.foldl crcOctet 0xFFFF#16

/-- The octets of a telegram before its check: label and kind, length, payload (Table 12-6). -/
def Telegram.body (t : Telegram) : List Byte :=
  octets2 (t.label ++ (t.kind.code.setWidth 2 : BitVec 2)) ++ oct t.payload.length :: t.payload

/-- The octets of a telegram on the line (Table 12-6, R1). -/
def Telegram.octets (t : Telegram) : List Byte := t.body ++ octets2 (checkSequence t.body)

/-- The result of a reception (01, R2). -/
inductive Reception where
  | codingError | formatError | checkError
  | clean (t : Telegram)
  deriving DecidableEq, Repr

/-- A telegram is well-formed in the sense of R1, its kind being known: length at most 16, and a WAKE telegram with label
0 has length 0. -/
def Telegram.wellFormed (t : Telegram) : Bool :=
  t.payload.length ≤ Config.maxPayload && !(t.kind == .wake && t.label == 0 && t.payload.length != 0)

/-- How the line unit judges line activity: coding before format, format before check (01, R2; 12, R185). -/
def judge (act : LineActivity) : Reception :=
  let os := act.octets
  if act.broken || os.length < 3 || os.length != 5 + (octetAt os 2).toNat then .codingError
  else
    let head := wordAt os 0
    match Kind.ofCode ((head.extractLsb' 0 2).setWidth 8) with
    | none => .formatError
    | some kind =>
      let n := (octetAt os 2).toNat
      let t : Telegram := ⟨kind, head.extractLsb' 2 14, (os.drop 3).take n⟩
      if !t.wellFormed then .formatError
      else if wordAt os (3 + n) != checkSequence (os.take (3 + n)) then .checkError
      else .clean t

end Sys2Proof.Machine
end

