-- ==== Sys2Proof/Machine/Flags.lean ====
section
/-! DEFINITION. The sixteen event flags of a port (09, section 9.5) and the outputs of the hub, computed from its state (log 24). -/

namespace Sys2Proof.Machine

/-- The event flags, in the order of Table 9-4. -/
inductive EventFlag where
  | rxReady | rxDrop | txDone | txFail | slotStale | slotOverrun | slotLost | slotGained
  | standinUsed | standinGone | coverEnded | lineChange | lineSilent | quiet | wakeCfgFault | leaseFree
  deriving DecidableEq, Repr

/-- The bit of a flag, RX_READY at bit 0 to LEASE_FREE at bit 15 (12, Table 12-2). -/
def EventFlag.bit : EventFlag → Nat
  | .rxReady => 0
  | .rxDrop => 1
  | .txDone => 2
  | .txFail => 3
  | .slotStale => 4
  | .slotOverrun => 5
  | .slotLost => 6
  | .slotGained => 7
  | .standinUsed => 8
  | .standinGone => 9
  | .coverEnded => 10
  | .lineChange => 11
  | .lineSilent => 12
  | .quiet => 13
  | .wakeCfgFault => 14
  | .leaseFree => 15

/-- The mask with the one bit of a flag. -/
def EventFlag.mask (f : EventFlag) : BitVec 16 := 1#16 <<< f.bit

/-- A flag raised in a port that is not DETACHED is set; a DETACHED port records no events (R162). -/
def PortUnit.raise (u : PortUnit) (f : EventFlag) : PortUnit :=
  if u.state = .detached then u else { u with flags := u.flags ||| f.mask }

/-- A flag stands set in a port. -/
def PortUnit.has (u : PortUnit) (f : EventFlag) : Bool := u.flags.getLsbD f.bit

/-- A port's ATTn output: asserted while the port is ACTIVE and an unmasked flag is set (R163), and released during a
device reset (11, R176). A mask position of 1 enables its flag and 0 masks it; the spec gives the order of the positions alone
(DESIGN CHOICE, unsafe, log 30). -/
def State.attn (s : State) (p : Port) : Bool :=
  s.resetting.isNone && (s.ports.get p).state == .active && (s.ports.get p).flags &&& (s.ports.get p).mask != 0

/-- A port's WAKEn output: asserted exactly while the port is WAKING (08, R145), and released during a device reset
(11, R176). -/
def State.waken (s : State) (p : Port) : Bool := s.resetting.isNone && (s.ports.get p).state == .waking

/-- The LEN output: the hub drives the line while a transmission is in flight (01, R4, R12; 11, R176). -/
def State.len (s : State) : Bool := s.resetting.isNone && s.line.inFlight.isSome

/-- The octets the hub drives on LTX for the transmission in flight (01, R14; 12, Table 12-6); during a device reset it
drives none (11, R176). -/
def State.ltxOctets (s : State) : List Byte :=
  match s.resetting, s.line.inFlight with
  | none, some r => r.telegram.octets
  | _, _ => []

/-- What the I2C master pair SCL, SDA drives: the phases of the loader's transfer under way (11, R177); in a device reset, and
when there is no transfer, it does not drive its bus (11, R176). -/
def State.imageBus (s : State) : List BusPhase := if s.resetting.isNone then s.loader.transfer else []

end Sys2Proof.Machine
end

