-- ==== Sys2Proof/Machine/Ops.lean ====
section
/-! DEFINITION. The named operations every meaning is built from: port units, events, timers, the pool's counts, the cut,
the candidacy order, wake causes, and the exchange of a command and its response. -/

namespace Sys2Proof.Machine

/-! ## Port units and queues -/

/-- Port `p`'s port unit. -/
def State.unit (s : State) (p : Port) : PortUnit := s.ports.get p

/-- `s` with port `p`'s port unit replaced. -/
def State.setUnit (s : State) (p : Port) (u : PortUnit) : State := { s with ports := s.ports.set p u }

/-- `s` with port `p`'s port unit changed by `f`. -/
def State.modUnit (s : State) (p : Port) (f : PortUnit → PortUnit) : State := s.setUnit p (f (s.unit p))

/-- `s` with port `p`'s receive queue and pool settings replaced. -/
def State.setRx (s : State) (p : Port) (q : RxQueue) : State := { s with rx := s.rx.set p q }

/-- `s` with port `p`'s transmit queue replaced. -/
def State.setTx (s : State) (p : Port) (q : TxQueue) : State := { s with tx := s.tx.set p q }

/-- Slot `n` when it is live. -/
def State.slot (s : State) (n : Nat) : Option Slot := s.slots.getD n none

/-- `s` with slot `n` replaced: none frees it. -/
def State.setSlot (s : State) (n : Nat) (x : Option Slot) : State := { s with slots := s.slots.set n x }

/-- Route entry `n` when it is live. -/
def State.route (s : State) (n : Nat) : Option RouteEntry := s.routes.getD n none

/-- The hub takes commands and events: no device reset is in progress (11, R176). -/
def State.live (s : State) : Bool := s.resetting.isNone

/-- An event outside a device reset; during one the hub is held inert (11, R176; log 11). -/
def whenLive (f : State → State) (s : State) : State := if s.live then f s else s

/-! ## Events (09, R162) -/

/-- Raise a flag in port `p`. -/
def State.raise (s : State) (p : Port) (f : EventFlag) : State := s.modUnit p (fun u => u.raise f)

/-- Raise a flag in every port that is not DETACHED (01, R11). -/
def State.raiseAll (s : State) (f : EventFlag) : State := { s with ports := s.ports.mapPort (fun _ u => u.raise f) }

/-- Raise a flag in every ACTIVE port (01, R10; 10, R172). -/
def State.raiseActive (s : State) (f : EventFlag) : State :=
  { s with ports := s.ports.mapPort (fun _ u => if u.state = .active then u.raise f else u) }

/-- Raise a flag in every ACTIVE port other than `p` (09, R168). -/
def State.raiseActiveExcept (s : State) (p : Port) (f : EventFlag) : State :=
  { s with ports := s.ports.mapPort (fun q u => if q ≠ p ∧ u.state = .active then u.raise f else u) }

/-! ## Timers (06, R93; log 5) -/

/-- A timer after one tick. -/
def tickTimer (t : Option Nat) : Option Nat := t.map (· - 1)

/-- A running timer whose interval has ended. -/
def ended (t : Option Nat) : Bool := t == some 0

/-! ## Presence (09, R158) -/

/-- The presence timer started with the full interval; an interval of 0 leaves it stopped. -/
def PortUnit.startPresence (u : PortUnit) : PortUnit :=
  { u with presenceTimer := if u.presenceInterval = 0 then none else some u.presenceInterval }

/-- A transaction that carries a command restarts the presence timer of an ACTIVE port. -/
def PortUnit.restartPresence (u : PortUnit) : PortUnit := if u.state = .active then u.startPresence else u

/-! ## The exchange (09, R150, R151; 12, R183) -/

/-- What a block answers to a command: the state after it and the response. -/
abbrev Reply := State × Response

/-- A refused command changes nothing of its block (R151). -/
def refuse (s : State) (c : ResultCode) : Reply := (s, ⟨c, []⟩)

/-- A taken command answers OK with its data (R151). -/
def accept (s : State) (data : List Byte) : Reply := (s, ⟨.ok, data⟩)

/-- The port shifts its response holder out for the `n` octets the controller clocks (R150, R183). -/
def State.shiftOut (s : State) (p : Port) (n : Nat) : State :=
  s.modUnit p (fun u => { u with sdo := u.holder.clockedOut n })

/-- The response replaces the whole holder (R150). -/
def State.setHolder (s : State) (p : Port) (r : Response) : State := s.modUnit p (fun u => { u with holder := r })

/-- The state a command finds: the transaction of `n` octets has shifted the holder out, and in ACTIVE the presence timer
has restarted (R150, R158). -/
def State.heard (s : State) (p : Port) (n : Nat) : State := (s.shiftOut p n).modUnit p PortUnit.restartPresence

/-- A chip-select assertion of port `p`: during a device reset it is no transaction; one that was under way when the device
reset ended carries none, clocks out no response and leaves the holder as the reset left it; every other is the transaction
`f` (11, R176; log 27). -/
def whenSelected (p : Port) (f : State → State) (s : State) : State :=
  whenLive
    (fun t => if (t.unit p).staleSelect then t.modUnit p (fun u => { u with staleSelect := false }) else f t) s

/-- A transaction of `n` octets that carries a command: while the loader is LOADING it is refused NOT_READY (11, R177);
otherwise `k` answers; the response replaces the holder (R150, R151). -/
def carried (p : Port) (n : Nat) (k : State → Reply) (s : State) : State :=
  whenSelected p
    (fun t =>
      let s1 := t.heard p n
      let r := if s1.loader.state = .loading then refuse s1 .notReady else k s1
      r.1.setHolder p r.2)
    s

/-- A transaction that carries command `c`: the FORMAT check, the state check of port `p`, then the command's block (R151,
R153, R183). -/
def portCommand (c : Command) (p : Port) (rest : List Byte) (body : List Byte → State → Reply) (s : State) : State :=
  carried p (rest.length + 1)
    (fun s1 =>
      match parameters c.frame rest with
      | none => refuse s1 .format
      | some ps =>
        match stateCheck c (s1.unit p).state with
        | some r => refuse s1 r
        | none => body ps s1)
    s

/-! ## The pool's counts (04, R56, R58) -/

/-- The occupancy of port `p`'s receive queue. -/
def State.occupancy (s : State) (p : Port) : Nat := (s.rx.get p).queue.length

/-- The four values of `f` added together. -/
def sumPorts (f : Port → Nat) : Nat := f .a + f .b + f .c + f .d

/-- The number of free buffers. -/
def State.freeCount (s : State) : Nat := Config.poolBuffers - sumPorts s.occupancy

/-- The outstanding reserve. -/
def State.outstanding (s : State) : Nat := sumPorts (fun p => (s.rx.get p).reserve - s.occupancy p)

/-- The headroom: the free buffers less the outstanding reserve. -/
def State.headroom (s : State) : Int := (s.freeCount : Int) - (s.outstanding : Int)

/-! ## The lease (09, R167, R168) -/

/-- Port `p` holds the lease. -/
def State.holds (s : State) (p : Port) : Bool := s.line.lease == some p

/-- A release of the lease by port `p` when it holds it: LEASE_FREE in every other ACTIVE port (R168). -/
def releaseLease (p : Port) (s : State) : State :=
  if s.holds p then { s with line := { s.line with lease := none } }.raiseActiveExcept p .leaseFree else s

/-! ## The in-flight record (01, R14, R17) -/

/-- The source of the transmission in flight. -/
def State.source (s : State) : Source :=
  match s.line.inFlight with
  | some r => r.source
  | none => .none

/-- The cut: when `src` is the source of the in-flight record, the record's source becomes none (R17). -/
def cut (src : Source) (s : State) : State :=
  match s.line.inFlight with
  | some r => if r.source = src then { s with line := { s.line with inFlight := some { r with source := .none } } } else s
  | none => s

/-- The head of port `p`'s transmit queue is in flight (05, R75). -/
def State.headInFlight (s : State) (p : Port) : Bool := s.source == .queueHead p

/-- The due entry of slot `n` is in flight (06, R109). -/
def State.dueInFlight (s : State) (n : Nat) : Bool := s.source == .dueEntry n

/-- A candidacy event takes the next place in the arbiter's order (05, R81; log 13). -/
def State.bumpCandidacy (s : State) : State := { s with nextCandidacy := s.nextCandidacy + 1 }

/-! ## Wake causes (08, R140, R145) -/

/-- The effective wake set admits the cause in DOZING (08, Table 8-3). -/
def WakeSet.admits (w : WakeSet) : WakeCause → Bool
  | .route _ => w.selective
  | .general => w.general
  | .timer => w.timer
  | .line => w.selective
  | .pending => true

/-- Entry to WAKING with the cause that was admitted (R140, R145). -/
def PortUnit.enterWaking (u : PortUnit) (cause : WakeCause) (stamp : Stamp) : PortUnit :=
  { u with state := .waking, wakeRecord := some ⟨cause, stamp⟩, wakeTimer := none, ackTimer := some Config.wakeAckTime }

/-- The wake rule: a DOZING port takes a cause its effective wake set admits, and every other cause is ignored (R140). -/
def PortUnit.takeCause (u : PortUnit) (cause : WakeCause) (stamp : Stamp) : PortUnit :=
  if u.state = .dozing ∧ u.wakeSet.admits cause = true then u.enterWaking cause stamp else u

/-- Present a wake cause to port `p` (R140). -/
def present (p : Port) (cause : WakeCause) (stamp : Stamp) (s : State) : State :=
  s.modUnit p (fun u => u.takeCause cause stamp)

/-- Present the wake cause LINE to every port; only a DOZING one takes it (01, R9, R23; 08, R141). -/
def presentLine (s : State) : State :=
  { s with ports := s.ports.mapPort (fun _ u => u.takeCause .line s.stamp) }

/-- The next number of a free value (log 16). -/
def State.drawn (s : State) : State := { s with freeIndex := s.freeIndex + 1 }

end Sys2Proof.Machine
end

