-- ==== Sys2Proof/Machine/Routes.lean ====
section
/-! DEFINITION. The route table: matching, the per-port decision and the route commands (03). -/

namespace Sys2Proof.Machine

/-- Octets 0 to 7 of a payload; those from the length onward count as 0 (R40). -/
def firstEight (payload : List Byte) : List Byte := (payload ++ List.replicate 8 0).take 8

/-- Octet by octet, the bits of the first list inside the second (R40). -/
def maskOctets (xs mask : List Byte) : List Byte := List.zipWith (· &&& ·) xs mask

/-- The data test (R40). -/
def DataTest.holds (d : DataTest) (payload : List Byte) : Bool :=
  match d with
  | .none => true
  | .anySet mask => (maskOctets (firstEight payload) mask).any (· != 0)
  | .equal mask value => maskOctets (firstEight payload) mask == value

/-- The length test (R39). -/
def LengthTest.holds (l : LengthTest) (n : Nat) : Bool :=
  match l with
  | .any => true
  | .exact k => n == k

/-- The kind test (R39). -/
def KindSet.contains (k : KindSet) : Kind → Bool
  | .data => k.data
  | .query => k.query
  | .wake => k.wake

/-- An entry matches a telegram when the label, kind, length and data tests all hold (R38 to R40). -/
def RouteEntry.matches (e : RouteEntry) (t : Telegram) : Bool :=
  t.label &&& e.labelMask == e.labelBase && e.kinds.contains t.kind && e.lengthTest.holds t.payload.length &&
    e.dataTest.holds t.payload

/-- The candidates of port `p` for a telegram, with their numbers, in ascending number (R42). `start` is the number of the
first entry of the list. -/
def routeCandidates (p : Port) (t : Telegram) (start : Nat) : List (Option RouteEntry) → List (Nat × RouteEntry)
  | [] => []
  | none :: rest => routeCandidates p t (start + 1) rest
  | some e :: rest =>
    if e.owner = p ∧ e.matches t = true then (start, e) :: routeCandidates p t (start + 1) rest
    else routeCandidates p t (start + 1) rest

/-- The candidate of lowest rank; among equal ranks the first of the list (R42). -/
def lowestRank : List (Nat × RouteEntry) → Option (Nat × RouteEntry)
  | [] => none
  | c :: rest =>
    match lowestRank rest with
    | none => some c
    | some d => if d.2.rank < c.2.rank then some d else some c

/-- The deciding entry of port `p` for a telegram, with its number (R42). -/
def decidingEntry (routes : List (Option RouteEntry)) (p : Port) (t : Telegram) : Option (Nat × RouteEntry) :=
  lowestRank (routeCandidates p t 0 routes)

/-- The local label of a delivered copy: the masked bits replaced by the local base, when there is one (R45). -/
def RouteEntry.localLabel (e : RouteEntry) (l : Label) : Label :=
  match e.localBase with
  | some base => l &&& ~~~e.labelMask ||| base
  | none => l

/-- An offer: the telegram, its stamp, and for a local offer the port excluded from delivery (01, section 1.7). -/
structure Offer where
  telegram : Telegram
  stamp : Stamp
  excluded : Option Port
  deriving DecidableEq, Repr

/-- What an offer yields for one port: a copy for the pool, and the entry number of a ROUTE cause (R44, R47). -/
structure Delivery where
  copy : Option RxRecord
  wake : Option Nat
  deriving DecidableEq, Repr

/-- Nothing is delivered. -/
def Delivery.nothing : Delivery := ⟨none, none⟩

/-- The copy entry `e`, number `n`, makes of an offer for a port that sleeps or not (R45, Table 3-2). -/
def Offer.copy (o : Offer) (n : Nat) (e : RouteEntry) (sleeping : Bool) : RxRecord :=
  { kind := o.telegram.kind, lineLabel := o.telegram.label, localLabel := e.localLabel o.telegram.label,
    payload := o.telegram.payload, routeIndex := n, stamp := o.stamp, wakeMark := e.wake, heldMark := sleeping,
    source := o.excluded }

/-- The outcome of an offer for a port in state `st` whose deciding entry is `e` (R43, R44, Table 3-2). -/
def Offer.outcome (o : Offer) (st : PortState) (n : Nat) (e : RouteEntry) : Delivery :=
  match e.action, st with
  | .discard, _ => Delivery.nothing
  | .deliver, .detached => Delivery.nothing
  | .deliver, .active => ⟨some (o.copy n e false), none⟩
  | .deliver, .dozing | .deliver, .waking =>
    if e.hold || e.wake then ⟨some (o.copy n e true), if e.wake then some n else none⟩ else Delivery.nothing

/-- The route table's decision for port `p` (R42 to R47): none for the excluded port or a DETACHED one. -/
def Offer.decide (o : Offer) (s : State) (p : Port) : Delivery :=
  if o.excluded = some p then Delivery.nothing
  else
    match decidingEntry s.routes p o.telegram with
    | none => Delivery.nothing
    | some (n, e) => o.outcome (s.unit p).state n e

/-! ## Route commands (03, section 3.6) -/

/-- The route count of port `p` (R35). -/
def State.routeCount (s : State) (p : Port) : Nat :=
  s.routes.countP (fun e => match e with | some x => x.owner == p | none => false)

/-- The number of live entries (R35). -/
def State.liveRoutes (s : State) : Nat := s.routes.countP Option.isSome

/-- The data test of a ROUTE_ADD; a mask and value the test does not use are not kept, and under EQUAL the value's bits
outside the mask are cleared (R49, R50). -/
def dataTestOf (code : Byte) (mask value : List Byte) : Option DataTest :=
  match code.toNat with
  | 0 => some .none
  | 1 => some (.anySet mask)
  | 2 => some (.equal mask (maskOctets value mask))
  | _ => none

/-- The local base of a ROUTE_ADD: absent when its presence bit is clear, and then any value passes (R184). -/
def localBaseOf (present : Bool) (w : Word16) : Option (Option Label) :=
  if present then (labelOf w).map some else some none

/-- The entry that the 28 parameter octets of ROUTE_ADD give, as R50 stores it; none for OUT_OF_RANGE (R49, first check).
The octets: rank, label base (2), label mask (2), kind set, length test, data test, action, route attributes, local base
(2), data mask (8), data value (8). -/
def routeEntryOf (p : Port) (ps : List Byte) : Option RouteEntry :=
  let attrs := octetAt ps 9
  match labelOf (wordAt ps 1), labelOf (wordAt ps 3), KindSet.ofOctet (octetAt ps 5), LengthTest.ofCode (octetAt ps 6),
      dataTestOf (octetAt ps 7) ((ps.drop 12).take 8) ((ps.drop 20).take 8), Action.ofCode (octetAt ps 8),
      localBaseOf (attrs.getLsbD 2) (wordAt ps 10) with
  | some base, some mask, some kinds, some len, some dt, some act, some lb =>
    if (octetAt ps 0).toNat ≤ 15 ∧ attrs.toNat < 8 then
      some { owner := p, rank := (octetAt ps 0).toNat, labelBase := base, labelMask := mask, kinds := kinds,
             lengthTest := len, dataTest := dt, action := act, hold := attrs.getLsbD 0 || attrs.getLsbD 1,
             wake := attrs.getLsbD 1, localBase := lb }
    else none
  | _, _, _, _, _, _, _ => none

/-- The label base and a present local base lie within the label mask, and the kind set is not empty (R49, second check). -/
def RouteEntry.patternOk (e : RouteEntry) : Bool :=
  within e.labelBase e.labelMask && (match e.localBase with | some b => within b e.labelMask | none => true) &&
    (e.kinds.data || e.kinds.query || e.kinds.wake)

/-- ROUTE_ADD's block (R49, R50). -/
def routeAddBody (p : Port) (ps : List Byte) (s : State) : Reply :=
  match routeEntryOf p ps with
  | none => refuse s .outOfRange
  | some e =>
    if !e.patternOk then refuse s .badPattern
    else if Config.routesPerPort ≤ s.routeCount p then refuse s .portLimit
    else
      match s.routes.findIdx? Option.isNone with
      | none => refuse s .tableFull
      | some n => accept { s with routes := s.routes.set n (some e) } [oct n]

/-- ROUTE_ADD (R49, R50). -/
def execRouteAdd (p : Port) (rest : List Byte) (s : State) : Out :=
  .next (portCommand .routeAdd p rest (routeAddBody p) s)

/-- ROUTE_REMOVE's block (R51). -/
def routeRemoveBody (p : Port) (ps : List Byte) (s : State) : Reply :=
  let n := (octetAt ps 0).toNat
  if Config.routeEntries ≤ n then refuse s .outOfRange
  else
    match s.route n with
    | none => refuse s .badIndex
    | some e => if e.owner = p then accept { s with routes := s.routes.set n none } [] else refuse s .notOwner

/-- ROUTE_REMOVE (R51). -/
def execRouteRemove (p : Port) (rest : List Byte) (s : State) : Out :=
  .next (portCommand .routeRemove p rest (routeRemoveBody p) s)

/-- The data test's code (Table 12-3). -/
def DataTest.code : DataTest → Byte
  | .none => 0
  | .anySet _ => 1
  | .equal _ _ => 2

/-- The data mask as ROUTE_READ gives it: absent reads eight octets of 0 (12, after Table 12-4). -/
def DataTest.storedMask : DataTest → List Byte
  | .none => List.replicate 8 0
  | .anySet m => m
  | .equal m _ => m

/-- The data value as ROUTE_READ gives it: absent reads eight octets of 0 (12, after Table 12-4). -/
def DataTest.storedValue : DataTest → List Byte
  | .equal _ v => v
  | _ => List.replicate 8 0

/-- The 28 parameter octets of ROUTE_ADD as the entry was stored (Table 12-2). -/
def RouteEntry.octets (e : RouteEntry) : List Byte :=
  oct e.rank :: label2 e.labelBase ++ label2 e.labelMask ++
    [e.kinds.octet, e.lengthTest.code, e.dataTest.code, e.action.code, setOctet e.hold e.wake e.localBase.isSome false] ++
    label2 (e.localBase.getD 0) ++ e.dataTest.storedMask ++ e.dataTest.storedValue

/-- ROUTE_READ's block (R52). -/
def routeReadBody (ps : List Byte) (s : State) : Reply :=
  let n := (octetAt ps 0).toNat
  if Config.routeEntries ≤ n then refuse s .outOfRange
  else
    match s.route n with
    | none => refuse s .badIndex
    | some e => accept s (octetAt ps 0 :: portCode e.owner :: e.octets)

/-- ROUTE_READ (R52). -/
def execRouteRead (p : Port) (rest : List Byte) (s : State) : Out :=
  .next (portCommand .routeRead p rest routeReadBody s)

/-- The numbers of the live entries of port `p`, ascending, from `start` on (R53). -/
def routeNumbers (p : Port) (start : Nat) : List (Option RouteEntry) → List Nat
  | [] => []
  | none :: rest => routeNumbers p (start + 1) rest
  | some e :: rest => if e.owner = p then start :: routeNumbers p (start + 1) rest else routeNumbers p (start + 1) rest

/-- ROUTE_LIST's block: the count and the numbers (R53, Table 12-2). -/
def routeListBody (p : Port) (_ps : List Byte) (s : State) : Reply :=
  let ns := routeNumbers p 0 s.routes
  accept s (oct ns.length :: ns.map oct)

/-- ROUTE_LIST (R53). -/
def execRouteList (p : Port) (rest : List Byte) (s : State) : Out :=
  .next (portCommand .routeList p rest (routeListBody p) s)

end Sys2Proof.Machine
end

