-- ==== Sys2Proof/Machine/Pool.lean ====
section
/-! DEFINITION. The buffer pool and the receive queues: admission, eviction, the pool commands (04). -/

namespace Sys2Proof.Machine

/-- A copy for port `p` is admitted into a new buffer: the occupancy is below the limit, and below the reserve or the
headroom is at least 1 (R61). -/
def State.admits (s : State) (p : Port) : Bool :=
  s.occupancy p < (s.rx.get p).limit && (s.occupancy p < (s.rx.get p).reserve || s.outstanding < s.freeCount)

/-- The queue without its first record that is not WAKE-marked; none when every record is WAKE-marked (R62). -/
def evictOldest : List RxRecord → Option (List RxRecord)
  | [] => none
  | r :: rest => if r.wakeMark then (evictOldest rest).map (r :: ·) else some rest

/-- A copy displaces an older record: DROP_OLDEST, an occupancy above 0 and not above the limit, and a record that is not
WAKE-marked (R62). -/
def State.displaced (s : State) (p : Port) : Option (List RxRecord) :=
  let q := s.rx.get p
  if q.policy = .dropOldest ∧ 0 < q.queue.length ∧ q.queue.length ≤ q.limit then evictOldest q.queue else none

/-- The admission decision for one copy for port `p` (R61 to R63, R65). -/
def admitCopy (p : Port) (r : RxRecord) (s : State) : State :=
  let q := s.rx.get p
  if s.admits p then
    let s1 := s.setRx p { q with queue := q.queue ++ [r] }
    if q.queue.isEmpty then s1.raise p .rxReady else s1
  else
    match s.displaced p with
    | some rest => (s.setRx p { q with queue := rest ++ [r] }).raise p .rxDrop
    | none => s.raise p .rxDrop

/-- The copy of one port in a group, when it holds one (R64). -/
def admitOpt (p : Port) (r : Option RxRecord) (s : State) : State :=
  match r with
  | some x => admitCopy p x s
  | none => s

/-- The copies of one offer, admitted as one group in the port order A, B, C, D (R64). -/
def admitGroup (a b c d : Option RxRecord) (s : State) : State :=
  admitOpt .d d (admitOpt .c c (admitOpt .b b (admitOpt .a a s)))

/-- The octets of a receive record in the FETCH response after the occupancy (12, Table 12-4). -/
def RxRecord.octets (r : RxRecord) : List Byte :=
  [r.kind.code, setOctet r.wakeMark r.heldMark r.source.isSome false, portOptCode r.source, oct r.routeIndex] ++
    label2 r.lineLabel ++ label2 r.localLabel ++ octets2 r.stamp ++ oct r.payload.length :: r.payload

/-- FETCH's block (R66). -/
def fetchBody (p : Port) (_ps : List Byte) (s : State) : Reply :=
  let q := s.rx.get p
  match q.queue with
  | [] => refuse s .queueEmpty
  | r :: rest => accept (s.setRx p { q with queue := rest }) (oct rest.length :: r.octets)

/-- FETCH (R66). -/
def execFetch (p : Port) (rest : List Byte) (s : State) : Out :=
  .next (portCommand .fetch p rest (fetchBody p) s)

/-- FLUSH_RX's block (R67). -/
def flushRxBody (p : Port) (_ps : List Byte) (s : State) : Reply :=
  let q := s.rx.get p
  accept (s.setRx p { q with queue := [] }) [oct q.queue.length]

/-- FLUSH_RX (R67). -/
def execFlushRx (p : Port) (rest : List Byte) (s : State) : Out :=
  .next (portCommand .flushRx p rest (flushRxBody p) s)

/-- SET_RESERVE's block: port, reserve, limit, policy (R68, R69). The settings are tried first; they stand when the
outstanding reserve does not exceed the free count with them in place. -/
def setReserveBody (p : Port) (ps : List Byte) (s : State) : Reply :=
  let reserve := (octetAt ps 1).toNat
  let limit := (octetAt ps 2).toNat
  if !s.holds p then refuse s .noLease
  else
    match portOf (octetAt ps 0), Policy.ofCode (octetAt ps 3) with
    | some q, some policy =>
      if 32 < reserve ∨ limit < 1 ∨ 128 < limit ∨ limit < reserve then refuse s .outOfRange
      else
        let s1 := s.setRx q ⟨(s.rx.get q).queue, reserve, limit, policy⟩
        if s1.freeCount < s1.outstanding then refuse s .reserveUnavailable else accept s1 []
    | _, _ => refuse s .outOfRange

/-- SET_RESERVE (R68, R69). -/
def execSetReserve (p : Port) (rest : List Byte) (s : State) : Out :=
  .next (portCommand .setReserve p rest (setReserveBody p) s)

/-- One port's part of the READ_POOL response: occupancy, reserve, limit, policy (12, Table 12-2). -/
def RxQueue.octets (q : RxQueue) : List Byte := [oct q.queue.length, oct q.reserve, oct q.limit, q.policy.code]

/-- READ_POOL's block (R70). -/
def readPoolBody (_ps : List Byte) (s : State) : Reply :=
  accept s (oct s.freeCount :: oct s.outstanding ::
    (s.rx.a.octets ++ s.rx.b.octets ++ s.rx.c.octets ++ s.rx.d.octets))

/-- READ_POOL (R70). -/
def execReadPool (p : Port) (rest : List Byte) (s : State) : Out :=
  .next (portCommand .readPool p rest readPoolBody s)

/-- The reserve a PORT_RESET of `p` restores: the loaded default, or the largest figure below it for which the headroom
with an empty queue is not negative (R71). -/
def State.restoredReserve (s : State) (p : Port) : Nat :=
  min (s.unit p).defaults.reserve
    (Config.poolBuffers - sumPorts (fun q => if q = p then 0 else max (s.rx.get q).reserve (s.occupancy q)))

end Sys2Proof.Machine
end

