-- ==== Sys2Proof/Machine/Windows.lean ====
section
/-! DEFINITION. Label windows: translation, SET_WINDOW and READ_WINDOW (02). -/

namespace Sys2Proof.Machine

/-- The permission a translating command asks for (02, Table 2-2). -/
inductive Permission where
  | data | query | slot
  deriving DecidableEq, Repr

/-- The window carries the permission. -/
def Window.allows (w : Window) : Permission → Bool
  | .data => w.allowData
  | .query => w.allowQuery
  | .slot => w.allowSlot

/-- An enabled window hits a local label whose bits inside the mask equal the base (R27). -/
def Window.hits (w : Window) (l : Label) : Bool := w.enabled && l &&& w.mask == w.base

/-- The masked bits of the label replaced by the map (R27). -/
def Window.translate (w : Window) (l : Label) : Label := l &&& ~~~w.mask ||| w.map

/-- The result of a translation: the line label, or the result code that refuses the command (R28). -/
inductive Translation where
  | label (l : Label)
  | fails (c : ResultCode)
  deriving DecidableEq, Repr

/-- The translation of a local label through a port's windows for one permission: the first enabled window that hits
decides alone (R27, R28). -/
def translate (ws : List Window) (perm : Permission) (l : Label) : Translation :=
  match ws.find? (fun w => w.hits l) with
  | none => .fails .noWindow
  | some w =>
    if w.allows perm then
      if w.translate l = 0 then .fails .labelReserved else .label (w.translate l)
    else .fails .notPermitted

/-- SET_WINDOW's block: window number, base, mask, map, attributes (R30). -/
def setWindowBody (p : Port) (ps : List Byte) (s : State) : Reply :=
  let n := (octetAt ps 0).toNat
  match windowAt ps 1 with
  | none => refuse s .outOfRange
  | some w =>
    if Config.windowCount ≤ n then refuse s .outOfRange
    else if !w.inMask then refuse s .badPattern
    else accept { s with windows := s.windows.set p ((s.windows.get p).set n w) } []

/-- SET_WINDOW (R30). -/
def execSetWindow (p : Port) (rest : List Byte) (s : State) : Out :=
  .next (portCommand .setWindow p rest (setWindowBody p) s)

/-- READ_WINDOW's block (R31). -/
def readWindowBody (p : Port) (ps : List Byte) (s : State) : Reply :=
  let n := (octetAt ps 0).toNat
  if Config.windowCount ≤ n then refuse s .outOfRange
  else accept s (octetAt ps 0 :: ((s.windows.get p).getD n Window.blank).octets)

/-- READ_WINDOW (R31). -/
def execReadWindow (p : Port) (rest : List Byte) (s : State) : Out :=
  .next (portCommand .readWindow p rest (readWindowBody p) s)

end Sys2Proof.Machine
end

