-- ==== Sys2Proof/Machine/Transmit.lean ====
section
/-! DEFINITION. Transmit queues, the line arbiter, and the effect of an outcome on a queue head (05). -/

namespace Sys2Proof.Machine

/-- Port `p`'s queue gets `more` at its tail; when it was empty, the new head becomes a candidate (R77, R78, R81). -/
def appendTx (p : Port) (more : List TxEntry) (s : State) : State :=
  let q := s.tx.get p
  if q.entries.isEmpty then (s.setTx p ⟨more, some s.nextCandidacy⟩).bumpCandidacy
  else s.setTx p { q with entries := q.entries ++ more }

/-- The head leaves port `p`'s queue, and the entry behind it, if any, becomes head and a candidate (R81, R84, R86). -/
def removeHead (p : Port) (s : State) : State :=
  match (s.tx.get p).entries.tail with
  | [] => s.setTx p ⟨[], none⟩
  | rest => (s.setTx p ⟨rest, some s.nextCandidacy⟩).bumpCandidacy

/-- SEND's block: kind, local label, L, payload (R76, R77). -/
def sendBody (p : Port) (ps : List Byte) (s : State) : Reply :=
  let payload := ps.drop 4
  match Kind.ofCode (octetAt ps 0), labelOf (wordAt ps 1) with
  | some kind, some local_ =>
    if kind = .wake ∨ Config.maxPayload < payload.length then refuse s .outOfRange
    else
      match translate (s.windows.get p) (if kind = .data then .data else .query) local_ with
      | .fails c => refuse s c
      | .label line =>
        if Config.txDepth ≤ (s.tx.get p).entries.length then refuse s .queueFull
        else
          let s1 := appendTx p [⟨kind, line, local_, payload, 0, s.stamp⟩] s
          accept s1 (label2 line ++ [oct (s1.tx.get p).entries.length])
  | _, _ => refuse s .outOfRange

/-- SEND (R76, R77). -/
def execSend (p : Port) (rest : List Byte) (s : State) : Out :=
  .next (portCommand .send p rest (sendBody p) s)

/-- A WAKE entry of SEND_WAKE (R78). -/
def wakeEntry (stamp : Stamp) : TxEntry := ⟨.wake, 0, 0, [], 0, stamp⟩

/-- SEND_WAKE's block (R78). -/
def sendWakeBody (p : Port) (_ps : List Byte) (s : State) : Reply :=
  if 6 < (s.tx.get p).entries.length then refuse s .queueFull
  else
    let s1 := appendTx p [wakeEntry s.stamp, wakeEntry s.stamp] s
    accept s1 [oct (s1.tx.get p).entries.length]

/-- SEND_WAKE (R78). -/
def execSendWake (p : Port) (rest : List Byte) (s : State) : Out :=
  .next (portCommand .sendWake p rest (sendWakeBody p) s)

/-- TX_FLUSH's block: every entry, or every entry behind a head that is in flight (R79). -/
def txFlushBody (p : Port) (_ps : List Byte) (s : State) : Reply :=
  let q := s.tx.get p
  if s.headInFlight p then
    accept (s.setTx p { q with entries := q.entries.take 1 }) [oct (q.entries.length - 1)]
  else accept (s.setTx p ⟨[], none⟩) [oct q.entries.length]

/-- TX_FLUSH (R79). -/
def execTxFlush (p : Port) (rest : List Byte) (s : State) : Out :=
  .next (portCommand .txFlush p rest (txFlushBody p) s)

/-- The head's details in the TX_STATUS response (12, Table 12-2). -/
def TxEntry.statusOctets (e : TxEntry) : List Byte :=
  e.kind.code :: label2 e.lineLabel ++ label2 e.localLabel ++ oct e.attempts :: octets2 e.stamp

/-- TX_STATUS's block (R80). -/
def txStatusBody (p : Port) (_ps : List Byte) (s : State) : Reply :=
  match (s.tx.get p).entries with
  | [] => accept s [0, 0]
  | e :: rest => accept s (oct (rest.length + 1) :: flagOctet (s.headInFlight p) :: e.statusOctets)

/-- TX_STATUS (R80). -/
def execTxStatus (p : Port) (rest : List Byte) (s : State) : Out :=
  .next (portCommand .txStatus p rest (txStatusBody p) s)

/-! ## The line arbiter (05, section 5.4) -/

/-- A candidate for the line: its telegram, its source, the origin port it would give, its candidacy moment (R81). -/
structure Candidate where
  telegram : Telegram
  source : Source
  origin : Port
  since : Nat
  deriving DecidableEq, Repr

/-- The candidate a port's queue gives: its head when the head is waiting (R81, R83). -/
def State.headCandidate (s : State) (p : Port) : List Candidate :=
  match (s.tx.get p).entries with
  | [] => []
  | e :: _ =>
    if s.headInFlight p then []
    else [⟨⟨e.kind, e.lineLabel, e.payload⟩, .queueHead p, p, ((s.tx.get p).headSince).getD 0⟩]

/-- The candidate a slot gives: its due entry when it is not in flight, of kind DATA under the slot's label (R81; 06,
R109). -/
def State.dueCandidate (s : State) (n : Nat) : List Candidate :=
  match s.slot n with
  | none => []
  | some sl =>
    match sl.due with
    | none => []
    | some d =>
      if s.dueInFlight n then [] else [⟨⟨.data, sl.lineLabel, d.payload⟩, .dueEntry n, sl.owner, d.candidacy⟩]

/-- The candidates for the line (R81). -/
def State.candidates (s : State) : List Candidate :=
  Port.list.flatMap s.headCandidate ++ (List.range Config.slotCount).flatMap s.dueCandidate

/-- `x` goes before `y`: the lower line label, or the same label and the earlier candidacy (R82). -/
def Candidate.before (x y : Candidate) : Bool :=
  x.telegram.label.toNat < y.telegram.label.toNat ||
    (x.telegram.label == y.telegram.label && x.since < y.since)

/-- The candidate the arbiter chooses, or none when there is none (R82). -/
def choose : List Candidate → Option Candidate
  | [] => none
  | c :: rest =>
    match choose rest with
    | none => some c
    | some d => if d.before c then some d else some c

/-! ## Outcomes at the head (05, section 5.5) -/

/-- SENT: the head is removed and TX_DONE raised in its port (R84). -/
def headSent (p : Port) (s : State) : State :=
  match (s.tx.get p).entries with
  | [] => s
  | _ => (removeHead p s).raise p .txDone

/-- ERROR: the head's attempts rise by 1; at 16 it is removed and TX_FAIL raised in its port (R86). -/
def headError (p : Port) (s : State) : State :=
  let q := s.tx.get p
  match q.entries with
  | [] => s
  | e :: rest =>
    if e.attempts + 1 < Config.attemptLimit then
      s.setTx p { q with entries := { e with attempts := e.attempts + 1 } :: rest }
    else (removeHead p s).raise p .txFail

end Sys2Proof.Machine
end

