-- ==== Sys2Proof/Machine/Slots.lean ====
section
/-! DEFINITION. Publication slots: due entries, expiries, coverage and takeover, triggers, query answers, the halt, and the
slot commands (06; 07, sections 7.3 and 7.4). -/

namespace Sys2Proof.Machine

/-! ## Slots as a whole -/

/-- Slot `n`, when it is live, changed by `f`. -/
def State.modSlot (s : State) (n : Nat) (f : Slot → Slot) : State :=
  match s.slot n with
  | some sl => s.setSlot n (some (f sl))
  | none => s

/-- An operation applied to every slot, in ascending number (log 18). -/
def forSlots (f : Nat → State → State) (s : State) : State :=
  (List.range Config.slotCount).foldl (fun t n => f n t) s

/-- A run or count that rises by 1 and stays at 255 (06, R102, R103). -/
def saturate (n : Nat) : Nat := min Config.runLimit (n + 1)

/-! ## Due entries (06, R100, R103, R109, R110) -/

/-- The due entry is withdrawn: cut when it is in flight, deleted when it waits (R100). -/
def withdrawDue (n : Nat) (s : State) : State :=
  (cut (.dueEntry n) s).modSlot n (fun sl => { sl with due := none })

/-- A publication of `payload` by slot `n`: a new due entry and a new candidacy; an old one is replaced, cut when it is in
flight, with an overrun (R103). -/
def publish (n : Nat) (payload : List Byte) (s : State) : State :=
  match s.slot n with
  | none => s
  | some sl =>
    let entry : DueEntry := ⟨payload, s.stamp, 0, s.nextCandidacy⟩
    match sl.due with
    | none => (s.setSlot n (some { sl with due := some entry })).bumpCandidacy
    | some _ =>
      (((cut (.dueEntry n) s).setSlot n
        (some { sl with due := some entry, overruns := saturate sl.overruns })).bumpCandidacy).raise sl.owner .slotOverrun

/-- SENT reported for slot `n`'s due entry: it is removed and its payload becomes the last-sent payload (R110). -/
def dueSent (n : Nat) (s : State) : State :=
  s.modSlot n (fun sl =>
    match sl.due with
    | some d => { sl with due := none, lastSent := some d.payload }
    | none => sl)

/-- ERROR reported for slot `n`'s due entry: its attempts rise by 1; at 16 it is removed with TX_FAIL in the owner (R110). -/
def dueError (n : Nat) (s : State) : State :=
  match s.slot n with
  | none => s
  | some sl =>
    match sl.due with
    | none => s
    | some d =>
      if d.attempts + 1 < Config.attemptLimit then
        s.setSlot n (some { sl with due := some { d with attempts := d.attempts + 1 } })
      else (s.setSlot n (some { sl with due := none })).raise sl.owner .txFail

/-- ABORTED reported for slot `n`'s due entry: it is deleted (R110). -/
def dueAborted (n : Nat) (s : State) : State := s.modSlot n (fun sl => { sl with due := none })

/-! ## Expiry (06, R101 to R105; 07, R125, R126) -/

/-- A pending period replaces the period (R101). -/
def Slot.takePeriod (sl : Slot) : Slot :=
  { sl with period := sl.pendingPeriod.getD sl.period, pendingPeriod := none }

/-- A fresh or repeating expiry sets the stale run and the stand-in's covered run to 0 (R101, R102). -/
def Slot.endRuns (sl : Slot) : Slot :=
  { sl with staleRun := 0, standIn := sl.standIn.map (fun x => { x with coveredRun := 0 }) }

/-- The changes a takeover makes to the slot (07, R126). -/
def Slot.takenOver (sl : Slot) (si : StandIn) : Slot :=
  { sl with owner := si.port, active := si.payload, pendingPayload := none, standIn := none, staleRun := 0 }

/-- The slot's state at the end of an expiry (R105). A ONE_SHOT slot becomes STOPPED or ARMED here whatever command falls
together with the expiry, beside R108's words that a slot goes on RUNNING after an expiry that comes before a SLOT_STOP with
the flag, or after a SLOT_START from FINISHING (DESIGN CHOICE, unsafe, log 29). -/
def Slot.finishExpiry (sl : Slot) : Slot :=
  match sl.state, sl.mode, sl.source with
  | .running, .repeating, _ => { sl with nextExpiry := some sl.period }
  | .running, .oneShot, .command => { sl with state := .stopped, nextExpiry := none }
  | .running, .oneShot, .trigger _ => { sl with state := .armed, nextExpiry := none }
  | .finishing, _, _ => { sl with state := .stopped, nextExpiry := none }
  | _, _, _ => sl

/-- The stand-in covers a stale expiry: its covered run rises, STANDIN_USED is raised in its port, at the takeover figure
the slot passes to it with SLOT_LOST and SLOT_GAINED, and its payload is published (07, R125, R126). A SLOT_STOP of the former
owner that comes after such an expiry is refused NOT_OWNER and withdraws nothing (07, R127, R130), beside the general words of
06, R108 (DESIGN CHOICE, unsafe, log 29). -/
def cover (n : Nat) (sl : Slot) (si : StandIn) (s : State) : State :=
  let run := si.coveredRun + 1
  let s1 := s.raise si.port .standinUsed
  if sl.takeoverAfter ≤ run then
    let s2 := s1.setSlot n (some (sl.takenOver si))
    publish n si.payload ((s2.raise sl.owner .slotLost).raise si.port .slotGained)
  else publish n si.payload (s1.setSlot n (some { sl with standIn := some { si with coveredRun := run } }))

/-- A stale expiry of slot `n`: the stale run rises, SLOT_STALE is raised in the owner, and a stand-in covers; with none,
nothing is published (R102). -/
def staleExpiry (n : Nat) (sl : Slot) (s : State) : State :=
  let sl1 := { sl with staleRun := saturate sl.staleRun }
  let s1 := (s.setSlot n (some sl1)).raise sl.owner .slotStale
  match sl.standIn with
  | none => s1
  | some si => cover n sl1 si s1

/-- What an expiry judges and publishes, once the period is taken: fresh, stale or repeating (R101 to R103). -/
def judgeExpiry (n : Nat) (sl : Slot) (s : State) : State :=
  match sl.pendingPayload with
  | some payload =>
    publish n payload (s.setSlot n (some { sl.endRuns with active := payload, pendingPayload := none }))
  | none =>
    if sl.freshRequired then staleExpiry n sl s
    else publish n sl.active (s.setSlot n (some sl.endRuns))

/-- An expiry of slot `n`, performed whole (R101 to R105). -/
def expire (n : Nat) (s : State) : State :=
  match s.slot n with
  | none => s
  | some sl => (judgeExpiry n sl.takePeriod s).modSlot n Slot.finishExpiry

/-- The slot in state `st`, RUNNING or FINISHING, with its next expiry at the offset after this event: a start, an edge or a
clear of the quiet latch (06, R94, R98, R112, R116). With offset 0 the expiry is due at the event itself (R93); it is an event
of its own, taken by SLOT_EXPIRY or before the next tick, so that an event which falls together with this one finds the slot in
`st`, as 10, R174 says (DEDUCED, safe, log 28). -/
def Slot.anchored (sl : Slot) (st : SlotState) : Slot := { sl with state := st, nextExpiry := some sl.offset }

/-! ## Triggers, queries, the halt (06, sections 6.9 to 6.11) -/

/-- The edge selection admits the sense (R112). -/
def SlotEdge.admits : SlotEdge → Sense → Bool
  | .both, _ => true
  | .rising, .rising => true
  | .falling, .falling => true
  | .rising, .falling => false
  | .falling, .rising => false

/-- The slot's start source names the pin and its edge selection admits the sense (R112). -/
def Slot.selects (sl : Slot) (pin : TrigPin) (sense : Sense) : Bool :=
  sl.source == .trigger pin && (match sl.edge with | some e => e.admits sense | none => false)

/-- What a slot does with an edge: ARMED starts it, RUNNING with REANCHOR moves its next expiry, and every other slot ignores it
(R112). A ONE_SHOT slot that an expiry has just left ARMED is started by an edge that comes after it, beside R112's words that
the edge moves the expiry after it (DESIGN CHOICE, unsafe, log 29). -/
def Slot.takeEdge (pin : TrigPin) (sense : Sense) (sl : Slot) : Slot :=
  if sl.selects pin sense && (sl.state == .armed || (sl.state == .running && sl.trigAction == .reanchor)) then
    sl.anchored .running
  else sl

/-- An edge on a trigger pin, at every live slot (R112, 10, R175). -/
def triggerEdge (pin : TrigPin) (sense : Sense) (s : State) : State :=
  { s with slots := s.slots.map (Option.map (Slot.takeEdge pin sense)) }

/-- TRIGGER_EDGE (R112, R175). -/
def execTriggerEdge (pin : TrigPin) (sense : Sense) (s : State) : Out :=
  .next (whenLive (triggerEdge pin sense) s)

/-- A slot answers queries: answer queries is yes, it is RUNNING or FINISHING, and it is not in a stale run with fresh
required (R113). A SLOT_STOP with the flag leaves it answering in FINISHING, beside R114's words of a SLOT_STOP taken before
the offer (DESIGN CHOICE, unsafe, log 29). -/
def Slot.answers (sl : Slot) : Bool :=
  sl.answerQueries && (sl.state == .running || sl.state == .finishing) && (!sl.freshRequired || sl.staleRun == 0)

/-- The number of the live slot that carries line label `l` (R91, R113). -/
def State.slotOfLabel (s : State) (l : Label) : Option Nat :=
  s.slots.findIdx? (fun x => match x with | some sl => sl.lineLabel == l | none => false)

/-- The query answerer: the slot that carries the label, answers and has no due entry is given one from its active payload
(R113). -/
def answerQuery (l : Label) (s : State) : State :=
  match s.slotOfLabel l with
  | none => s
  | some n =>
    match s.slot n with
    | none => s
    | some sl => if sl.answers && sl.due.isNone then publish n sl.active s else s

/-- A slot at the setting of the quiet latch: ARMED, RUNNING and FINISHING are halted, and a waiting due entry is deleted
(R115). A due entry that was in flight has already been deleted by the abort, so every one left is waiting. -/
def Slot.halt (sl : Slot) : Slot :=
  match sl.state with
  | .armed => { sl with state := .halted .armed, nextExpiry := none, due := none }
  | .running => { sl with state := .halted .running, nextExpiry := none, due := none }
  | .finishing => { sl with state := .halted .finishing, nextExpiry := none, due := none }
  | .stopped | .halted _ => { sl with due := none }

/-- Every live slot at the setting of the quiet latch (R115). -/
def haltSlots (s : State) : State := { s with slots := s.slots.map (Option.map Slot.halt) }

/-- A slot at the clearing of the quiet latch: it returns to its held state, from RUNNING and FINISHING with its next expiry at
its offset after the clear (R116). -/
def Slot.release (sl : Slot) : Slot :=
  match sl.state with
  | .halted .armed => { sl with state := .armed }
  | .halted .running => sl.anchored .running
  | .halted .finishing => sl.anchored .finishing
  | .stopped | .armed | .running | .finishing => sl

/-- Every slot at the clearing of the quiet latch (R116). -/
def releaseSlots (s : State) : State := { s with slots := s.slots.map (Option.map Slot.release) }

/-! ## Slot commands -/

/-- The slot a command of port `p` names: BAD_INDEX for a free one, NOT_OWNER for another port's (R96). -/
def ownedSlot (p : Port) (n : Nat) (s : State) (k : Slot → Reply) : Reply :=
  match s.slot n with
  | none => refuse s .badIndex
  | some sl => if sl.owner = p then k sl else refuse s .notOwner

/-- The slot SLOT_CREATE makes (R95). -/
def Slot.created (p : Port) (line local_ : Label) (period offset : Nat) (payload : List Byte) : Slot :=
  { owner := p, lineLabel := line, localLabel := local_, mode := .repeating, source := .command, edge := none,
    trigAction := .start, period := period, offset := offset, active := payload, pendingPayload := none,
    pendingPeriod := none, lastSent := none, freshRequired := false, answerQueries := false, takeoverAfter := 3,
    staleRun := 0, overruns := 0, state := .stopped, nextExpiry := none, due := none, standIn := none }

/-- SLOT_CREATE's block: local label, period, offset, L, payload (R95). -/
def slotCreateBody (p : Port) (ps : List Byte) (s : State) : Reply :=
  let period := (wordAt ps 2).toNat
  let offset := (wordAt ps 4).toNat
  let payload := ps.drop 7
  match labelOf (wordAt ps 0) with
  | none => refuse s .outOfRange
  | some local_ =>
    if period = 0 ∨ Config.maxPeriod < period ∨ period ≤ offset ∨ Config.maxPayload < payload.length then
      refuse s .outOfRange
    else
      match translate (s.windows.get p) .slot local_ with
      | .fails c => refuse s c
      | .label line =>
        if (s.slotOfLabel line).isSome then refuse s .labelInUse
        else
          match s.slots.findIdx? Option.isNone with
          | none => refuse s .slotFull
          | some n =>
            accept (s.setSlot n (some (Slot.created p line local_ period offset payload))) (oct n :: label2 line)

/-- SLOT_CREATE (R95). -/
def execSlotCreate (p : Port) (rest : List Byte) (s : State) : Out :=
  .next (portCommand .slotCreate p rest (slotCreateBody p) s)

/-- The eight settings of SLOT_CONFIGURE (R97). -/
structure SlotSettings where
  mode : SlotMode
  source : StartSource
  edge : Option SlotEdge
  trigAction : TriggerAction
  offset : Nat
  freshRequired : Bool
  answerQueries : Bool
  takeoverAfter : Nat
  deriving DecidableEq, Repr

/-- The edge parameter: with source COMMAND any value passes and none is kept (R97, R184). -/
def edgeParameter (source : StartSource) (b : Byte) : Option (Option SlotEdge) :=
  match source with
  | .command => some none
  | .trigger _ => SlotEdge.ofCode b

/-- The settings that the octets of SLOT_CONFIGURE give: slot, mode, start source, edge, trigger action, offset (2), slot
flags, takeover after; none where one is outside the fixed range of its field (R96, R97, R184; log 14). -/
def slotSettingsOf (ps : List Byte) : Option SlotSettings :=
  let flags := octetAt ps 7
  let after := (octetAt ps 8).toNat
  match SlotMode.ofCode (octetAt ps 1), StartSource.ofCode (octetAt ps 2), TriggerAction.ofCode (octetAt ps 4) with
  | some mode, some source, some act =>
    match edgeParameter source (octetAt ps 3) with
    | some edge =>
      if flags.toNat < 4 ∧ 1 ≤ after ∧ after ≤ 7 then
        some ⟨mode, source, edge, act, (wordAt ps 5).toNat, flags.getLsbD 0, flags.getLsbD 1, after⟩
      else none
    | none => none
  | _, _, _ => none

/-- The slot with the eight settings written (R97). -/
def Slot.configured (sl : Slot) (c : SlotSettings) : Slot :=
  { sl with mode := c.mode, source := c.source, edge := c.edge, trigAction := c.trigAction, offset := c.offset,
            freshRequired := c.freshRequired, answerQueries := c.answerQueries, takeoverAfter := c.takeoverAfter }

/-- The settings fit the slot: the offset is below the period and below a pending one, and a trigger source has an edge
(R97). -/
def SlotSettings.fit (c : SlotSettings) (sl : Slot) : Bool :=
  c.offset < sl.period && (match sl.pendingPeriod with | some q => c.offset < q | none => true) &&
    (c.source == .command || c.edge.isSome)

/-- SLOT_CONFIGURE's block (R97). -/
def slotConfigureBody (p : Port) (ps : List Byte) (s : State) : Reply :=
  let n := (octetAt ps 0).toNat
  match slotSettingsOf ps with
  | none => refuse s .outOfRange
  | some c =>
    if Config.slotCount ≤ n then refuse s .outOfRange
    else
      ownedSlot p n s (fun sl =>
        if sl.state ≠ .stopped then refuse s .wrongState
        else if c.fit sl then accept (s.setSlot n (some (sl.configured c))) []
        else refuse s .outOfRange)

/-- SLOT_CONFIGURE (R97). -/
def execSlotConfigure (p : Port) (rest : List Byte) (s : State) : Out :=
  .next (portCommand .slotConfigure p rest (slotConfigureBody p) s)

/-- The slot after a start from STOPPED, beside a quiet latch `latch`: RUNNING or ARMED by the start source, or HALTED with that
state held when the latch is set; the stale run is set to 0 (R98, R99). -/
def Slot.started (latch : Bool) (sl : Slot) : Slot :=
  let sl1 := { sl with staleRun := 0 }
  match latch, sl.source with
  | false, .command => sl1.anchored .running
  | false, .trigger _ => { sl1 with state := .armed }
  | true, .command => { sl1 with state := .halted .running }
  | true, .trigger _ => { sl1 with state := .halted .armed }

/-- SLOT_START's block (R98, R99): it acts on the state in which it finds the slot, also after an expiry that falls together
with it; a slot with a trigger as start source that the finishing expiry has left STOPPED becomes ARMED, beside R108's words
that the start returns it to RUNNING (DESIGN CHOICE, unsafe, log 29). -/
def slotStartBody (p : Port) (ps : List Byte) (s : State) : Reply :=
  let n := (octetAt ps 0).toNat
  if Config.slotCount ≤ n then refuse s .outOfRange
  else
    ownedSlot p n s (fun sl =>
      match sl.state with
      | .stopped => accept (s.setSlot n (some (sl.started s.quiet.latch))) []
      | .finishing => accept (s.setSlot n (some { sl with state := .running })) []
      | .armed | .running | .halted _ => refuse s .wrongState)

/-- SLOT_START (R98, R99). -/
def execSlotStart (p : Port) (rest : List Byte) (s : State) : Out :=
  .next (portCommand .slotStart p rest (slotStartBody p) s)

/-- The slot becomes STOPPED at once: the timer stops, the held state is dropped, the due entry is withdrawn (R100). -/
def stopNow (n : Nat) (s : State) : State :=
  (withdrawDue n s).modSlot n (fun sl => { sl with state := .stopped, nextExpiry := none })

/-- SLOT_STOP's block: slot, at-expiry flag (R100). With and without the flag it acts on the state in which it finds the slot:
one that an expiry left STOPPED with its due entry is refused WRONG_STATE like every STOPPED one, and one that an expiry left
ARMED is STOPPED at once, beside R108's words that the stop withdraws the due entry, or with the flag waits for the following
expiry (DESIGN CHOICE, unsafe, log 29). -/
def slotStopBody (p : Port) (ps : List Byte) (s : State) : Reply :=
  let n := (octetAt ps 0).toNat
  match flagOf (octetAt ps 1) with
  | none => refuse s .outOfRange
  | some atExpiry =>
    if Config.slotCount ≤ n then refuse s .outOfRange
    else
      ownedSlot p n s (fun sl =>
        match sl.state, atExpiry with
        | .stopped, _ => refuse s .wrongState
        | .running, true => accept (s.setSlot n (some { sl with state := .finishing })) []
        | .finishing, true => accept s []
        | .halted .running, true => accept (s.setSlot n (some { sl with state := .halted .finishing })) []
        | .halted .finishing, true => accept s []
        | _, _ => accept (stopNow n s) [])

/-- SLOT_STOP (R100). -/
def execSlotStop (p : Port) (rest : List Byte) (s : State) : Out :=
  .next (portCommand .slotStop p rest (slotStopBody p) s)

/-- The slot refreshed with a payload: active in STOPPED and ARMED, pending otherwise (R106); so too after an expiry that left
a ONE_SHOT slot STOPPED or ARMED, beside R108's words that the refresh leaves a pending payload (DESIGN CHOICE, unsafe, log
29). -/
def Slot.refreshed (sl : Slot) (payload : List Byte) : Slot :=
  match sl.state with
  | .stopped | .armed => { sl with active := payload, pendingPayload := none }
  | .running | .finishing | .halted _ => { sl with pendingPayload := some payload }

/-- SLOT_REFRESH's block: slot, L, payload (R106). -/
def slotRefreshBody (p : Port) (ps : List Byte) (s : State) : Reply :=
  let n := (octetAt ps 0).toNat
  let payload := ps.drop 2
  if Config.slotCount ≤ n ∨ Config.maxPayload < payload.length then refuse s .outOfRange
  else ownedSlot p n s (fun sl => accept (s.setSlot n (some (sl.refreshed payload))) [])

/-- SLOT_REFRESH (R106). -/
def execSlotRefresh (p : Port) (rest : List Byte) (s : State) : Out :=
  .next (portCommand .slotRefresh p rest (slotRefreshBody p) s)

/-- The slot given a period: at once in STOPPED and ARMED, pending otherwise (R107); so too after an expiry that left a ONE_SHOT
slot STOPPED or ARMED, beside R108's words that the new period waits (DESIGN CHOICE, unsafe, log 29). -/
def Slot.withPeriod (sl : Slot) (period : Nat) : Slot :=
  match sl.state with
  | .stopped | .armed => { sl with period := period, pendingPeriod := none }
  | .running | .finishing | .halted _ => { sl with pendingPeriod := some period }

/-- SLOT_SET_PERIOD's block: slot, period (R107). -/
def slotSetPeriodBody (p : Port) (ps : List Byte) (s : State) : Reply :=
  let n := (octetAt ps 0).toNat
  let period := (wordAt ps 1).toNat
  if Config.slotCount ≤ n ∨ period = 0 ∨ Config.maxPeriod < period then refuse s .outOfRange
  else
    ownedSlot p n s (fun sl =>
      if period ≤ sl.offset then refuse s .outOfRange
      else accept (s.setSlot n (some (sl.withPeriod period))) [])

/-- SLOT_SET_PERIOD (R107). -/
def execSlotSetPeriod (p : Port) (rest : List Byte) (s : State) : Out :=
  .next (portCommand .slotSetPeriod p rest (slotSetPeriodBody p) s)

/-- Slot `n` is removed: its due entry withdrawn, its stand-in removed with COVER_ENDED in the stand-in port, the slot
freed (R117). -/
def removeSlot (n : Nat) (s : State) : State :=
  match s.slot n with
  | none => s
  | some sl =>
    let s1 := (withdrawDue n s).setSlot n none
    match sl.standIn with
    | some si => s1.raise si.port .coverEnded
    | none => s1

/-- SLOT_REMOVE's block (R117). -/
def slotRemoveBody (p : Port) (ps : List Byte) (s : State) : Reply :=
  let n := (octetAt ps 0).toNat
  if Config.slotCount ≤ n then refuse s .outOfRange
  else ownedSlot p n s (fun _ => accept (removeSlot n s) [])

/-- SLOT_REMOVE (R117). -/
def execSlotRemove (p : Port) (rest : List Byte) (s : State) : Out :=
  .next (portCommand .slotRemove p rest (slotRemoveBody p) s)

/-- A payload as SLOT_READ gives it: a length octet and its octets; an absent one reads length 0 (12, Table 12-5). -/
def payloadOctets : Option (List Byte) → List Byte
  | some bs => oct bs.length :: bs
  | none => [0]

/-- The presence bits of a SLOT_READ response (12, Table 12-5). -/
def Slot.presenceBits (sl : Slot) (inFlight : Bool) : Byte :=
  setOctet sl.freshRequired sl.answerQueries sl.pendingPayload.isSome sl.pendingPeriod.isSome |||
    setOctet sl.lastSent.isSome sl.due.isSome inFlight sl.standIn.isSome <<< 4

/-- The slot record of a SLOT_READ response; `run` is the octet of the covered run (12, Table 12-5). -/
def Slot.octets (sl : Slot) (n : Byte) (inFlight : Bool) (run : Byte) : List Byte :=
  [n, portCode sl.owner] ++ label2 sl.lineLabel ++ label2 sl.localLabel ++ [sl.state.code, sl.state.heldCode] ++
    [sl.mode.code, sl.source.code, SlotEdge.optCode sl.edge, sl.trigAction.code] ++
    count2 sl.period ++ count2 sl.offset ++ [sl.presenceBits inFlight] ++
    [oct sl.takeoverAfter, oct sl.staleRun, oct sl.overruns] ++
    (match sl.nextExpiry with | some k => count2 k | none => [0xFF, 0xFF]) ++ count2 (sl.pendingPeriod.getD 0) ++
    (match sl.due with | some d => octets2 d.stamp ++ [oct d.attempts] | none => [0, 0, 0]) ++
    [portOptCode (sl.standIn.map StandIn.port), run] ++
    payloadOctets (some sl.active) ++ payloadOctets sl.pendingPayload ++ payloadOctets sl.lastSent ++
    payloadOctets (sl.due.map DueEntry.payload) ++ payloadOctets (sl.standIn.map StandIn.payload)

/-- SLOT_READ's block (R118). Without a stand-in the covered run octet is a free value (log 15). -/
def slotReadBody (ps : List Byte) (s : State) : Reply :=
  let n := (octetAt ps 0).toNat
  if Config.slotCount ≤ n then refuse s .outOfRange
  else
    match s.slot n with
    | none => refuse s .badIndex
    | some sl =>
      match sl.standIn with
      | some si => accept s (sl.octets (octetAt ps 0) (s.dueInFlight n) (oct si.coveredRun))
      | none =>
        accept s.drawn (sl.octets (octetAt ps 0) (s.dueInFlight n) (Config.absentCoveredRun s.freeIndex))

/-- SLOT_READ (R118). -/
def execSlotRead (p : Port) (rest : List Byte) (s : State) : Out :=
  .next (portCommand .slotRead p rest slotReadBody s)

end Sys2Proof.Machine
end

