-- ==== Sys2Proof/Machine/StandIns.lean ====
section
/-! DEFINITION. The stand-in commands, and what a teardown does to slots and stand-ins (07). -/

namespace Sys2Proof.Machine

/-- STANDIN_ATTACH's block: slot, local label, L, payload (R121, R122). -/
def standinAttachBody (p : Port) (ps : List Byte) (s : State) : Reply :=
  let n := (octetAt ps 0).toNat
  let payload := ps.drop 4
  match labelOf (wordAt ps 1) with
  | none => refuse s .outOfRange
  | some local_ =>
    if Config.slotCount ≤ n ∨ Config.maxPayload < payload.length then refuse s .outOfRange
    else
      match s.slot n with
      | none => refuse s .badIndex
      | some sl =>
        if sl.owner = p then refuse s .wrongState
        else if sl.standIn.isSome then refuse s .standinTaken
        else
          match translate (s.windows.get p) .slot local_ with
          | .fails c => refuse s c
          | .label line =>
            if line = sl.lineLabel then
              accept (s.setSlot n (some { sl with standIn := some ⟨p, payload, 0⟩ })) (octetAt ps 0 :: label2 line)
            else refuse s .notPermitted

/-- STANDIN_ATTACH (R121, R122). -/
def execStandinAttach (p : Port) (rest : List Byte) (s : State) : Out :=
  .next (portCommand .standinAttach p rest (standinAttachBody p) s)

/-- The stand-in a command of port `p` acts on: BAD_INDEX, then WRONG_STATE with no stand-in, then NOT_OWNER (R123). -/
def ownStandIn (p : Port) (n : Nat) (s : State) (k : Slot → StandIn → Reply) : Reply :=
  match s.slot n with
  | none => refuse s .badIndex
  | some sl =>
    match sl.standIn with
    | none => refuse s .wrongState
    | some si => if si.port = p then k sl si else refuse s .notOwner

/-- STANDIN_REFRESH's block: slot, L, payload (R123). -/
def standinRefreshBody (p : Port) (ps : List Byte) (s : State) : Reply :=
  let n := (octetAt ps 0).toNat
  let payload := ps.drop 2
  if Config.slotCount ≤ n ∨ Config.maxPayload < payload.length then refuse s .outOfRange
  else
    ownStandIn p n s (fun sl si =>
      accept (s.setSlot n (some { sl with standIn := some { si with payload := payload } })) [])

/-- STANDIN_REFRESH (R123). -/
def execStandinRefresh (p : Port) (rest : List Byte) (s : State) : Out :=
  .next (portCommand .standinRefresh p rest (standinRefreshBody p) s)

/-- STANDIN_DETACH's block (R124). -/
def standinDetachBody (p : Port) (ps : List Byte) (s : State) : Reply :=
  let n := (octetAt ps 0).toNat
  if Config.slotCount ≤ n then refuse s .outOfRange
  else
    ownStandIn p n s (fun sl _ =>
      accept ((s.setSlot n (some { sl with standIn := none })).raise sl.owner .standinGone) [])

/-- STANDIN_DETACH (R124). -/
def execStandinDetach (p : Port) (rest : List Byte) (s : State) : Out :=
  .next (portCommand .standinDetach p rest (standinDetachBody p) s)

/-- Slot `n` at the teardown of port `p`: when `p` owns it, it passes to its stand-in port by takeover with SLOT_GAINED, or
is removed when it has none (R128; 06, R117; 09, R160 step 5). -/
def disposeSlot (p : Port) (n : Nat) (s : State) : State :=
  match s.slot n with
  | none => s
  | some sl =>
    if sl.owner = p then
      match sl.standIn with
      | some si => (s.setSlot n (some (sl.takenOver si))).raise si.port .slotGained
      | none => removeSlot n s
    else s

/-- Slot `n` at the teardown of port `p`: a stand-in of `p` is removed with STANDIN_GONE in the owner (R129; 09, R160 step
6). -/
def dropStandIn (p : Port) (n : Nat) (s : State) : State :=
  match s.slot n with
  | none => s
  | some sl =>
    match sl.standIn with
    | none => s
    | some si =>
      if si.port = p then (s.setSlot n (some { sl with standIn := none })).raise sl.owner .standinGone else s

end Sys2Proof.Machine
end

