-- ==== Sys2Proof/Machine/Line.lean ====
section
/-! DEFINITION. The line unit: line states, the error counter, silence, offers, receptions, transmission attempts and the
line commands (01); the general-wake detector (08, section 8.4). -/

namespace Sys2Proof.Machine

/-- `s` with the line unit changed by `f`. -/
def State.modLine (s : State) (f : LineUnit → LineUnit) : State := { s with line := f s.line }

/-! ## Line state, silence and the counter (R5 to R11) -/

/-- A change of line state raises LINE_CHANGE; a command that leaves the state it found raises none (R11). `before` is the
state before. -/
def announceLine (before : LineState) (s : State) : State :=
  if s.line.state = before then s else s.raiseAll .lineChange

/-- A restarting event of the silence timer, which runs in SYNCED alone (R10). -/
def LineUnit.restartSilence (u : LineUnit) : LineUnit :=
  if u.state = .synced then { u with silenceTimer := some u.silenceTime, silentFlag := false } else u

/-- A reception in progress is abandoned: the receiver begins a new period, and activity that began before it has no reception
end (R4, R7, R22, R23; log 7). -/
def LineUnit.abandonReception (u : LineUnit) : LineUnit := { u with receiverPeriod := u.receiverPeriod + 1 }

/-- The line unit started according to the rate mode in force; what the line carried before is not received (R5; R22; log 7,
log 21). -/
def LineUnit.started (u : LineUnit) : LineUnit :=
  match u.rateMode with
  | .auto =>
    { u.abandonReception with
      state := .search, trialRate := u.configuredRate, cleanCount := 0, dwellTimer := some Config.dwellTime,
      errorCount := 0, silenceTimer := none, silentFlag := false }
  | .fixed =>
    { u.abandonReception with
      state := .synced, trialRate := u.configuredRate, cleanCount := 0, dwellTimer := none,
      errorCount := 0, silenceTimer := some u.silenceTime, silentFlag := false }

/-- Start the line, as LINE_ON, LINE_RESYNC and the loader do (R5, R22; 11, R179). -/
def startLine (s : State) : State := announceLine s.line.state (s.modLine LineUnit.started)

/-- The sync of a search (R6). -/
def LineUnit.synced (u : LineUnit) : LineUnit :=
  { u with state := .synced, configuredRate := u.trialRate, cleanCount := 0, dwellTimer := none, errorCount := 0,
           silenceTimer := some u.silenceTime, silentFlag := false }

/-- Entry to DEGRADED: the silence timer stops, LINE_CHANGE is raised, and LINE is presented to DOZING ports (R9). -/
def enterDegraded (s : State) : State :=
  presentLine ((s.modLine (fun u =>
    { u with state := .degraded, silenceTimer := none, silentFlag := false })).raiseAll .lineChange)

/-- The counter after an addition in SYNCED: at most 32 (R8). -/
def LineUnit.addErrors (u : LineUnit) (n : Nat) : LineUnit :=
  if u.state = .synced then { u with errorCount := min Config.errorLimit (u.errorCount + n) } else u

/-- The counter after a subtraction in SYNCED: at 0 it stays (R8). -/
def LineUnit.subError (u : LineUnit) : LineUnit :=
  if u.state = .synced then { u with errorCount := u.errorCount - 1 } else u

/-- The line becomes DEGRADED when the counter has reached 32 in SYNCED (R9). -/
def checkDegraded (s : State) : State :=
  if s.line.state = .synced ∧ s.line.errorCount = Config.errorLimit then enterDegraded s else s

/-- The rate after another in the order 100, 200, 400, 800, 100 (R7). -/
def Rate.next : Rate → Rate
  | .k100 => .k200
  | .k200 => .k400
  | .k400 => .k800
  | .k800 => .k100

/-! ## Offers (R18, R19; 08, R143, R144) -/

/-- The telegram is the general wake telegram: WAKE with line label 0. -/
def Telegram.isGeneralWake (t : Telegram) : Bool := t.kind == .wake && t.label == 0

/-- The offer completes a general wake sequence, and presents GENERAL to port `p`, which neither telegram of the pair
excludes (08, R144). -/
def Offer.presentsGeneral (o : Offer) (memory : Option Remembered) (p : Port) : Bool :=
  match memory with
  | some m => o.telegram.isGeneralWake && m.excluded != some p && o.excluded != some p
  | none => false

/-- The detector's memory after an offer: a first telegram is remembered and starts the window, a second empties it (08,
R143, R144). -/
def Offer.remember (o : Offer) (memory : Option Remembered) : Option Remembered :=
  if o.telegram.isGeneralWake then
    match memory with
    | none => some ⟨o.stamp, o.excluded, Config.generalWakeWindow⟩
    | some _ => none
  else memory

/-- The wake causes one offer presents to port `p`. Where both reach it, either may be taken first: a free value decides
(08, R140; log 6). -/
def presentCauses (p : Port) (route : Option Nat) (general : Bool) (stamp : Stamp) (s : State) : State :=
  match route, general with
  | none, false => s
  | some n, false => present p (.route n) stamp s
  | none, true => present p .general stamp s
  | some n, true =>
    if Config.generalFirst s.freeIndex then present p (.route n) stamp (present p .general stamp s.drawn)
    else present p .general stamp (present p (.route n) stamp s.drawn)

/-- The wake causes an offer presents to the four ports; `ds` are the route table's decisions (03, R47; 08, R144). -/
def wakePorts (o : Offer) (ds : Quad Delivery) (memory : Option Remembered) (s : State) : State :=
  Port.list.foldl (fun t p => presentCauses p (ds.get p).wake (o.presentsGeneral memory p) o.stamp t) s

/-- The route table's decisions for one offer, made against one state of the table (03, R41, R46). -/
def Offer.decisions (o : Offer) (s : State) : Quad Delivery := ⟨o.decide s .a, o.decide s .b, o.decide s .c, o.decide s .d⟩

/-- An offer: to the route table, to the general-wake detector, and, when `answer` is set and it is a QUERY, to the query
answerer (R18, R19). -/
def offer (o : Offer) (answer : Bool) (s : State) : State :=
  let ds := o.decisions s
  let s1 := admitGroup ds.a.copy ds.b.copy ds.c.copy ds.d.copy s
  let s2 := wakePorts o ds s.detector s1
  let s3 := { s2 with detector := o.remember s.detector }
  if answer && o.telegram.kind == .query then answerQuery o.telegram.label s3 else s3

/-! ## Receptions (R2, R6 to R8, R10, R18) -/

/-- A reception error at its reception end (R7, R8, R10). -/
def receptionError (s : State) : State :=
  match s.line.state with
  | .off | .degraded => s
  | .search => s.modLine (fun u => { u with cleanCount := 0 })
  | .synced => checkDegraded (s.modLine (fun u => (u.restartSilence).addErrors 1))

/-- What the reception end of a clean telegram does to the line unit (R6, R8, R10). -/
def cleanReception (s : State) : State :=
  match s.line.state with
  | .off | .degraded => s
  | .search =>
    if 1 ≤ s.line.cleanCount then (s.modLine LineUnit.synced).raiseAll .lineChange
    else s.modLine (fun u => { u with cleanCount := u.cleanCount + 1, dwellTimer := some Config.dwellTime })
  | .synced => s.modLine (fun u => (u.restartSilence).subError)

/-- A reception end with a given result; a clean telegram is offered with the stamp counter's value (R2, R18). -/
def receive (r : Reception) (s : State) : State :=
  match r with
  | .clean t => offer ⟨t, s.stamp, none⟩ true (cleanReception s)
  | .codingError | .formatError | .checkError => receptionError s

/-- Activity that began in the receiver's period `began` has a reception end: the receiver is on, the hub is not driving the
line, and nothing has abandoned the reception since (01, Table 1-2, R2, R4, R7, R22, R23; log 7). -/
def State.receives (s : State) (began : Nat) : Bool :=
  s.line.state != .off && s.line.inFlight.isNone && s.line.receiverPeriod == began

/-- RECEPTION_END (R2, R185). -/
def execReceptionEnd (act : LineActivity) (s : State) : Out :=
  .next (whenLive (fun t => if t.receives act.began then receive (judge act) t else t) s)

/-! ## Transmission attempts (R12 to R17) -/

/-- The attempt's end deletes the in-flight record and puts a pending line mode in force (R13, R14). -/
def LineUnit.endAttempt (u : LineUnit) : LineUnit :=
  { u with inFlight := none, mode := u.pendingMode.getD u.mode, pendingMode := none }

/-- SENT reported to the source (05, R84; 06, R110). -/
def reportSent (src : Source) (s : State) : State :=
  match src with
  | .queueHead p => headSent p s
  | .dueEntry n => dueSent n s
  | .none => s

/-- ERROR reported to the source (05, R86; 06, R110). -/
def reportError (src : Source) (s : State) : State :=
  match src with
  | .queueHead p => headError p s
  | .dueEntry n => dueError n s
  | .none => s

/-- ABORTED reported to the source: a queue head returns to waiting as it was, a due entry is deleted (05, R85; 06,
R110). -/
def reportAborted (src : Source) (s : State) : State :=
  match src with
  | .dueEntry n => dueAborted n s
  | .queueHead _ | .none => s

/-- The attempt on the line of record `r` ends SENT (R15, R19). -/
def endSent (r : InFlight) (s : State) : State :=
  let s1 := s.modLine (fun u => (u.endAttempt.subError).restartSilence)
  reportSent r.source (offer ⟨r.telegram, s.stamp, some r.origin⟩ false s1)

/-- The attempt ends LOST: the silence timer restarts, and the source keeps its telegram waiting (R15). -/
def endLost (s : State) : State := s.modLine (fun u => u.endAttempt.restartSilence)

/-- The attempt of record `r` ends ERROR: the counter rises by 2, the outcome is reported, and entry to DEGRADED follows
the report; whatever else is on the line is not received (R4, R8, R15). -/
def endError (r : InFlight) (s : State) : State :=
  checkDegraded (reportError r.source
    (s.modLine (fun u => ((u.endAttempt.restartSilence).addErrors 2).abandonReception)))

/-- A transmission in flight, if any, ends ABORTED (R15, R16). -/
def abortAttempt (s : State) : State :=
  match s.line.inFlight with
  | some r => reportAborted r.source (s.modLine (fun u => u.endAttempt.restartSilence))
  | none => s

/-- A transmission may begin, the line having been idle for the idle gap: SYNCED, NORMAL or LOOPBACK, the quiet latch
clear, none in flight (R14). -/
def State.mayTransmit (s : State) : Bool :=
  s.line.state == .synced && s.line.mode != .listenOnly && !s.quiet.latch && s.line.inFlight.isNone

/-- The chosen candidate's attempt begins: in NORMAL the in-flight record stands; in LOOPBACK the attempt ends SENT at
once, without the counter and the silence timer, and its local offer reaches the query answerer (R12, R14, R19). -/
def beginAttempt (c : Candidate) (s : State) : State :=
  if s.line.mode = .loopback then reportSent c.source (offer ⟨c.telegram, s.stamp, some c.origin⟩ true s)
  else s.modLine (fun u => { u with inFlight := some ⟨c.telegram, c.source, c.origin⟩ })

/-- The moment at which the line has been idle for the idle gap: the arbiter chooses (R14; 05, R82). -/
def transmissionStart (s : State) : State :=
  if s.mayTransmit then
    match choose s.candidates with
    | some c => beginAttempt c s
    | none => s
  else s

/-- TRANSMISSION_START (R14; log 8). -/
def execTransmissionStart (s : State) : Out := .next (whenLive transmissionStart s)

/-- A contending node's label decides: the hub loses to a lower one alone (R3; log 9). -/
def contend (winner : Label) (s : State) : State :=
  match s.line.inFlight with
  | some r => if winner.toNat < r.telegram.label.toNat then endLost s else s
  | none => s

/-- CONTENTION_LOSS (R3). -/
def execContentionLoss (winner : Label) (s : State) : Out := .next (whenLive (contend winner) s)

/-- An echo error ends the attempt in flight ERROR (R4). -/
def echoError (s : State) : State :=
  match s.line.inFlight with
  | some r => endError r s
  | none => s

/-- ECHO_ERROR (R4). -/
def execEchoError (s : State) : Out := .next (whenLive echoError s)

/-- The attempt in flight ends SENT (R15). -/
def attemptSent (s : State) : State :=
  match s.line.inFlight with
  | some r => endSent r s
  | none => s

/-- ATTEMPT_SENT (R15). -/
def execAttemptSent (s : State) : Out := .next (whenLive attemptSent s)

/-! ## Line commands (R20 to R24) -/

/-- The four settings of LINE_SET (R20). -/
structure LineSettings where
  rateMode : RateMode
  rate : Rate
  silenceTime : Nat
  mode : LineMode
  deriving DecidableEq, Repr

/-- The settings that LINE_SET's octets give: rate mode, rate code, silence time (2), line mode; none for OUT_OF_RANGE
(R20). -/
def lineSettingsOf (ps : List Byte) : Option LineSettings :=
  let silence := (wordAt ps 2).toNat
  match RateMode.ofCode (octetAt ps 0), Rate.ofCode (octetAt ps 1), LineMode.ofCode (octetAt ps 4) with
  | some rm, some rate, some mode => if 50 ≤ silence ∧ silence ≤ 5000 then some ⟨rm, rate, silence, mode⟩ else none
  | _, _, _ => none

/-- The silence time written: a change while the timer runs restarts it with the new time (R10). -/
def LineUnit.setSilence (u : LineUnit) (n : Nat) : LineUnit :=
  if u.silenceTime ≠ n ∧ u.silenceTimer.isSome then { u with silenceTime := n, silenceTimer := some n }
  else { u with silenceTime := n }

/-- The line mode written: at once, or held pending while a transmission is in flight, where NORMAL cancels a pending mode
(R13). -/
def LineUnit.setMode (u : LineUnit) (m : LineMode) : LineUnit :=
  if u.inFlight.isSome then { u with pendingMode := if m = .normal then none else some m } else { u with mode := m }

/-- The four settings written (R20). -/
def LineUnit.set (u : LineUnit) (c : LineSettings) : LineUnit :=
  (({ u with rateMode := c.rateMode, configuredRate := c.rate }).setSilence c.silenceTime).setMode c.mode

/-- LINE_SET's block (R20, R21). -/
def lineSetBody (p : Port) (ps : List Byte) (s : State) : Reply :=
  if !s.holds p then refuse s .noLease
  else
    match lineSettingsOf ps with
    | none => refuse s .outOfRange
    | some c => accept (s.modLine (fun u => u.set c)) []

/-- LINE_SET (R20). -/
def execLineSet (p : Port) (rest : List Byte) (s : State) : Out :=
  .next (portCommand .lineSet p rest (lineSetBody p) s)

/-- LINE_ON's block (R5, R21). -/
def lineOnBody (p : Port) (_ps : List Byte) (s : State) : Reply :=
  if !s.holds p then refuse s .noLease
  else if s.line.state ≠ .off then refuse s .wrongState
  else accept (startLine s) []

/-- LINE_ON (R5). -/
def execLineOn (p : Port) (rest : List Byte) (s : State) : Out :=
  .next (portCommand .lineOn p rest (lineOnBody p) s)

/-- The line turned off, a reception in progress abandoned (R23); in OFF nothing changes (log 22). -/
def turnLineOff (s : State) : State :=
  if s.line.state = .off then s
  else
    presentLine (((abortAttempt s).modLine (fun u =>
      { u.abandonReception with state := .off, errorCount := 0, cleanCount := 0, dwellTimer := none, silenceTimer := none,
                                silentFlag := false })).raiseAll .lineChange)

/-- LINE_OFF's block (R21, R23). -/
def lineOffBody (p : Port) (_ps : List Byte) (s : State) : Reply :=
  if !s.holds p then refuse s .noLease else accept (turnLineOff s) []

/-- LINE_OFF (R23). -/
def execLineOff (p : Port) (rest : List Byte) (s : State) : Out :=
  .next (portCommand .lineOff p rest (lineOffBody p) s)

/-- LINE_RESYNC's block (R21, R22). -/
def lineResyncBody (p : Port) (_ps : List Byte) (s : State) : Reply :=
  if !s.holds p then refuse s .noLease
  else if s.line.state = .off then refuse s .wrongState
  else accept (startLine (abortAttempt s)) []

/-- LINE_RESYNC (R22). -/
def execLineResync (p : Port) (rest : List Byte) (s : State) : Out :=
  .next (portCommand .lineResync p rest (lineResyncBody p) s)

/-- The record READ_LINE returns (R24; 12, Table 12-2). -/
def State.lineOctets (s : State) : List Byte :=
  let u := s.line
  [u.state.code, u.rateMode.code, u.configuredRate.code, u.trialRate.code, u.mode.code,
    (match u.pendingMode with | some m => m.code | none => absent)] ++ count2 u.silenceTime ++
    [oct u.errorCount, flagOctet u.silentFlag, flagOctet s.quiet.latch, portOptCode u.lease]

/-- READ_LINE's block (R24). -/
def readLineBody (_ps : List Byte) (s : State) : Reply := accept s s.lineOctets

/-- READ_LINE (R24). -/
def execReadLine (p : Port) (rest : List Byte) (s : State) : Out :=
  .next (portCommand .readLine p rest readLineBody s)

end Sys2Proof.Machine
end

