-- ==== Sys2Proof/Machine/Wake.lean ====
section
/-! DEFINITION. Dozing and wake: DOZE and RESUME (08). -/

namespace Sys2Proof.Machine

/-- The port owns a live DELIVER entry with WAKE (R136). -/
def State.ownsWakeEntry (s : State) (p : Port) : Bool :=
  s.routes.any (fun e =>
    match e with
    | some x => x.owner == p && x.action == .deliver && x.wake
    | none => false)

/-- The selective check (R136). -/
def State.selectiveCheck (s : State) (p : Port) : Bool :=
  s.ownsWakeEntry p && (s.line.state == .search || s.line.state == .synced)

/-- The port's receive queue holds a WAKE-marked record (R137; 04, R59). -/
def State.holdsWakeRecord (s : State) (p : Port) : Bool := (s.rx.get p).queue.any RxRecord.wakeMark

/-- The effective wake set of a DOZE that requests `w` (R136). -/
def State.effectiveSet (s : State) (p : Port) (w : WakeSet) : WakeSet :=
  { w with selective := w.selective && s.selectiveCheck p }

/-- The port unit as it enters DOZING (R135). -/
def PortUnit.doze (u : PortUnit) (w : WakeSet) (period : Nat) : PortUnit :=
  { u with state := .dozing, presenceTimer := none, wakeRecord := none, wakeSet := w,
           wakePeriod := if w.timer then some period else none, wakeTimer := if w.timer then some period else none,
           ackTimer := none }

/-- A DOZE taken: the lease released, the port DOZING, WAKE_CFG_FAULT for a failed selective check, and PENDING taken at
once for an unfetched WAKE-marked record (R135 to R137). -/
def takeDoze (p : Port) (w : WakeSet) (period : Nat) (s : State) : State :=
  let eff := s.effectiveSet p w
  let s1 := (releaseLease p s).modUnit p (fun u => u.doze eff period)
  let s2 := if w.selective && !s.selectiveCheck p then s1.raise p .wakeCfgFault else s1
  if s.holdsWakeRecord p then present p .pending s.stamp s2 else s2

/-- DOZE's block: requested wake set, wake timer period (R134 to R138). -/
def dozeBody (p : Port) (ps : List Byte) (s : State) : Reply :=
  let period := (wordAt ps 1).toNat
  match WakeSet.ofOctet (octetAt ps 0) with
  | none => refuse s .outOfRange
  | some w =>
    if w.timer = true ∧ period < 10 then refuse s .outOfRange
    else accept (takeDoze p w period s) [(s.effectiveSet p w).octet, flagOctet (s.holdsWakeRecord p)]

/-- DOZE (R134 to R138). -/
def execDoze (p : Port) (rest : List Byte) (s : State) : Out :=
  .next (portCommand .doze p rest (dozeBody p) s)

/-- The port unit after RESUME (R147). -/
def PortUnit.resumed (u : PortUnit) : PortUnit :=
  ({ u with state := .active, wakeTimer := none, ackTimer := none, wakeRecord := none, wakeSet := WakeSet.empty,
            wakePeriod := none }).startPresence

/-- RESUME's block (R147). -/
def resumeBody (p : Port) (_ps : List Byte) (s : State) : Reply :=
  accept (s.modUnit p PortUnit.resumed) (wakeRecordOctets (s.unit p).wakeRecord)

/-- RESUME (R147). -/
def execResume (p : Port) (rest : List Byte) (s : State) : Out :=
  .next (portCommand .resume p rest (resumeBody p) s)

end Sys2Proof.Machine
end

