-- ==== Sys2Proof/Machine/Ports.lean ====
section
/-! DEFINITION. The port units: attach, detach, port reset, teardown, presence, events, status, and the line-control lease
(09); READ_ID (11, R181). -/

namespace Sys2Proof.Machine

/-! ## Teardown (R160) -/

/-- Step 2: the transmit queue is emptied, and an in-flight head's source is cut (05, R87). -/
def clearTx (p : Port) (s : State) : State := (cut (.queueHead p) s).setTx p ⟨[], none⟩

/-- Step 3: the receive queue is emptied (04, R71). -/
def clearRx (p : Port) (s : State) : State := s.setRx p { s.rx.get p with queue := [] }

/-- Step 4: the route entries the port owns are freed (03, R37). -/
def freeRoutes (p : Port) (s : State) : State :=
  { s with routes := s.routes.map (fun e =>
      match e with
      | some x => if x.owner = p then none else some x
      | none => none) }

/-- Steps 7 and 8: timers stopped, flags, wake set and wake record cleared, the port DETACHED with its cause. -/
def PortUnit.tornDown (u : PortUnit) (cause : DetachCause) : PortUnit :=
  { u with state := .detached, detachCause := cause, flags := 0, presenceTimer := none, wakeSet := WakeSet.empty,
           wakePeriod := none, wakeTimer := none, ackTimer := none, wakeRecord := none }

/-- A teardown of port `p`, its eight steps in order (R160). -/
def teardown (p : Port) (cause : DetachCause) (s : State) : State :=
  let s4 := freeRoutes p (clearRx p (clearTx p (releaseLease p s)))
  let s6 := forSlots (dropStandIn p) (forSlots (disposeSlot p) s4)
  s6.modUnit p (fun u => u.tornDown cause)

/-! ## Attach, detach, reset (R155 to R157) -/

/-- The port unit after ATTACH (R155). -/
def PortUnit.attached (u : PortUnit) : PortUnit :=
  ({ u with state := .active, detachCause := .none, flags := 0 }).startPresence

/-- ATTACH's block (R155). -/
def attachBody (p : Port) (_ps : List Byte) (s : State) : Reply :=
  accept (s.modUnit p PortUnit.attached) [(s.unit p).detachCause.code]

/-- ATTACH (R155). -/
def execAttach (p : Port) (rest : List Byte) (s : State) : Out :=
  .next (portCommand .attach p rest (attachBody p) s)

/-- DETACH's block (R156). -/
def detachBody (p : Port) (_ps : List Byte) (s : State) : Reply := accept (teardown p .requested s) []

/-- DETACH (R156). -/
def execDetach (p : Port) (rest : List Byte) (s : State) : Out :=
  .next (portCommand .detach p rest (detachBody p) s)

/-- The port's settings written from its loaded defaults, the reserve under the headroom rule (R157; 02, R34; 04, R71). -/
def restoreDefaults (p : Port) (s : State) : State :=
  let d := (s.unit p).defaults
  let s1 := s.setRx p ⟨(s.rx.get p).queue, s.restoredReserve p, d.limit, d.policy⟩
  { s1 with windows := s1.windows.set p d.windows }.modUnit p
    (fun u => { u with presenceInterval := d.presenceInterval, mask := d.mask })

/-- PORT_RESET's block: the teardown unless the port is DETACHED, then the loaded defaults (R157). -/
def portResetBody (p : Port) (_ps : List Byte) (s : State) : Reply :=
  let s1 :=
    if (s.unit p).state = .detached then s.modUnit p (fun u => { u with detachCause := .reset })
    else teardown p .reset s
  accept (restoreDefaults p s1) []

/-- PORT_RESET (R157). -/
def execPortReset (p : Port) (rest : List Byte) (s : State) : Out :=
  .next (portCommand .portReset p rest (portResetBody p) s)

/-! ## Presence (R159) -/

/-- A presence interval is 0 or a multiple of 10 from 10 to 2550 (R159). -/
def presenceIntervalOk (n : Nat) : Bool := n % 10 == 0 && n ≤ 2550

/-- SET_PRESENCE's block: the interval (R159). -/
def setPresenceBody (p : Port) (ps : List Byte) (s : State) : Reply :=
  let n := (wordAt ps 0).toNat
  if presenceIntervalOk n then
    accept (s.modUnit p (fun u => ({ u with presenceInterval := n }).startPresence)) []
  else refuse s .outOfRange

/-- SET_PRESENCE (R159). -/
def execSetPresence (p : Port) (rest : List Byte) (s : State) : Out :=
  .next (portCommand .setPresence p rest (setPresenceBody p) s)

/-! ## Events and status (R164 to R166) -/

/-- TAKE_EVENTS's block (R164). -/
def takeEventsBody (p : Port) (_ps : List Byte) (s : State) : Reply :=
  accept (s.modUnit p (fun u => { u with flags := 0 })) (octets2 (s.unit p).flags)

/-- TAKE_EVENTS (R164). -/
def execTakeEvents (p : Port) (rest : List Byte) (s : State) : Out :=
  .next (portCommand .takeEvents p rest (takeEventsBody p) s)

/-- SET_EVENT_MASK's block: the mask (R165). -/
def setEventMaskBody (p : Port) (ps : List Byte) (s : State) : Reply :=
  accept (s.modUnit p (fun u => { u with mask := wordAt ps 0 })) []

/-- SET_EVENT_MASK (R165). -/
def execSetEventMask (p : Port) (rest : List Byte) (s : State) : Out :=
  .next (portCommand .setEventMask p rest (setEventMaskBody p) s)

/-- The status record of port `p`, 19 octets (R166; 12, Table 12-2). -/
def State.statusOctets (s : State) (p : Port) : List Byte :=
  let u := s.unit p
  [u.state.code, u.detachCause.code] ++ octets2 u.flags ++ octets2 u.mask ++
    [oct (s.occupancy p), oct (s.tx.get p).entries.length] ++ count2 u.presenceInterval ++ [u.wakeSet.octet] ++
    wakeRecordOctets u.wakeRecord ++
    [portOptCode s.line.lease, s.line.state.code, flagOctet s.quiet.latch, flagOctet s.loader.loadFault]

/-- READ_STATUS's block (R166). -/
def readStatusBody (p : Port) (_ps : List Byte) (s : State) : Reply := accept s (s.statusOctets p)

/-- READ_STATUS (R166). -/
def execReadStatus (p : Port) (rest : List Byte) (s : State) : Out :=
  .next (portCommand .readStatus p rest (readStatusBody p) s)

/-- READ_ID's block: vendor code 6Ch, part code 4120, revision 1, LOAD_FAULT (11, R181; 12, Table 12-2). -/
def readIdBody (_ps : List Byte) (s : State) : Reply :=
  accept s (0x6C :: count2 4120 ++ [1, flagOctet s.loader.loadFault])

/-- READ_ID (11, R181). -/
def execReadId (p : Port) (rest : List Byte) (s : State) : Out :=
  .next (portCommand .readId p rest readIdBody s)

/-! ## The lease (R167, R168) -/

/-- LEASE_TAKE's block (R167). -/
def leaseTakeBody (p : Port) (_ps : List Byte) (s : State) : Reply :=
  match s.line.lease with
  | none => accept (s.modLine (fun u => { u with lease := some p })) []
  | some q => if q = p then accept s [] else (s, ⟨.leaseHeld, [portCode q]⟩)

/-- LEASE_TAKE (R167). -/
def execLeaseTake (p : Port) (rest : List Byte) (s : State) : Out :=
  .next (portCommand .leaseTake p rest (leaseTakeBody p) s)

/-- LEASE_RELEASE's block (R168). -/
def leaseReleaseBody (p : Port) (_ps : List Byte) (s : State) : Reply :=
  if s.holds p then accept (releaseLease p s) [] else refuse s .wrongState

/-- LEASE_RELEASE (R168). -/
def execLeaseRelease (p : Port) (rest : List Byte) (s : State) : Out :=
  .next (portCommand .leaseRelease p rest (leaseReleaseBody p) s)

end Sys2Proof.Machine
end

