-- ==== Sys2Proof/Machine/Quiet.lean ====
section
/-! DEFINITION. The quiet input (10). The trigger inputs hold no state; their edges act in Machine/Slots.lean. -/

namespace Sys2Proof.Machine

/-- The edge selection admits the sense (R170). -/
def QuietSelection.admits : QuietSelection → Sense → Bool
  | .none, _ => false
  | .both, _ => true
  | .rising, .rising => true
  | .falling, .falling => true
  | .rising, .falling => false
  | .falling, .rising => false

/-- The pin stands at the active level of the selection; BOTH and NONE have none (R173). -/
def QuietInput.atActiveLevel (q : QuietInput) : Bool :=
  match q.selection with
  | .rising => q.pin
  | .falling => !q.pin
  | .none | .both => false

/-- The level the pin stands at after an edge (R170). -/
def levelAfter : Sense → Bool
  | .rising => true
  | .falling => false

/-- The latch is set: any attempt ends ABORTED, the slots are halted, QUIET is raised in ACTIVE ports (R172). -/
def setLatch (s : State) : State :=
  let s1 := haltSlots (abortAttempt s)
  { s1 with quiet := { s1.quiet with latch := true } }.raiseActive .quiet

/-- A selected edge while the latch is clear sets it; every other edge is ignored. While the loader is LOADING no edge is
acted on (R170, R172). -/
def actOnEdge (sense : Sense) (s : State) : State :=
  if s.loader.state = .ready ∧ s.quiet.selection.admits sense = true ∧ s.quiet.latch = false then setLatch s else s

/-- An edge on QUIET: the pin's level changes, and outside a device reset the input acts on the edge (R170, R172; log 2). -/
def quietEdge (sense : Sense) (s : State) : State :=
  whenLive (actOnEdge sense) { s with quiet := { s.quiet with pin := levelAfter sense } }

/-- QUIET_EDGE (R172). -/
def execQuietEdge (sense : Sense) (s : State) : Out := .next (quietEdge sense s)

/-- QUIET_CONFIG's block: the edge selection (R171). -/
def quietConfigBody (p : Port) (ps : List Byte) (s : State) : Reply :=
  if !s.holds p then refuse s .noLease
  else
    match QuietSelection.ofCode (octetAt ps 0) with
    | none => refuse s .outOfRange
    | some sel => accept { s with quiet := { s.quiet with selection := sel } } []

/-- QUIET_CONFIG (R171). -/
def execQuietConfig (p : Port) (rest : List Byte) (s : State) : Out :=
  .next (portCommand .quietConfig p rest (quietConfigBody p) s)

/-- QUIET_CLEAR's block (R173). -/
def quietClearBody (_ps : List Byte) (s : State) : Reply :=
  if s.quiet.atActiveLevel then refuse s .quietActive
  else if !s.quiet.latch then refuse s .wrongState
  else accept (releaseSlots { s with quiet := { s.quiet with latch := false } }) []

/-- QUIET_CLEAR (R173). -/
def execQuietClear (p : Port) (rest : List Byte) (s : State) : Out :=
  .next (portCommand .quietClear p rest quietClearBody s)

end Sys2Proof.Machine
end

