-- ==== Sys2Proof/Machine/Loader.lean ====
section
/-! DEFINITION. Device reset and the loader: the image, its checks, its installation, the built-in defaults (11). -/

namespace Sys2Proof.Machine

/-! ## The image (11, Table 11-1; 12, Table 12-7) -/

/-- One port section of the image. -/
structure PortSection where
  reserve : Nat
  limit : Nat
  policy : Policy
  presenceInterval : Nat
  mask : BitVec 16
  windows : List Window
  deriving DecidableEq, Repr

/-- The settings an image gives. -/
structure Image where
  lineOn : Bool
  rateMode : RateMode
  rate : Rate
  mode : LineMode
  silenceTime : Nat
  quiet : QuietSelection
  sections : Quad PortSection
  deriving DecidableEq, Repr

/-- The windows of a port section whose windows start at offset `k`; `count` of them. None when one is out of range or
breaks its mask (R178). -/
def windowsAt (img : List Byte) (k : Nat) : Nat → Option (List Window)
  | 0 => some []
  | count + 1 =>
    match windowAt img k, windowsAt img (k + 7) count with
    | some w, some ws => if w.inMask then some (w :: ws) else none
    | _, _ => none

/-- The port section at offset `k`; none when a value is out of range (R178). -/
def portSectionAt (img : List Byte) (k : Nat) : Option PortSection :=
  let reserve := (octetAt img k).toNat
  let limit := (octetAt img (k + 1)).toNat
  match Policy.ofCode (octetAt img (k + 2)), windowsAt img (k + 6) Config.windowCount with
  | some policy, some ws =>
    if reserve ≤ 32 ∧ 1 ≤ limit ∧ limit ≤ 128 ∧ reserve ≤ limit then
      some ⟨reserve, limit, policy, 10 * (octetAt img (k + 3)).toNat, wordAt img (k + 4), ws⟩
    else none
  | _, _ => none

/-- The check holds: the 260 octets before it, and it, add up to 0 modulo 65536 (R178). -/
def checkHolds (img : List Byte) : Bool :=
  ((((img.take 260).map BitVec.toNat).sum + (wordAt img 260).toNat) % 65536) == 0

/-- The header and the spare octet hold what R178 asks. -/
def headerOk (img : List Byte) : Bool :=
  wordAt img 0 == 0x4A5A#16 && octetAt img 2 == 1 && octetAt img 3 == 4 && octetAt img 11 == 0

/-- The four port sections (Table 12-7). -/
def portSections (img : List Byte) : Option (Quad PortSection) :=
  match portSectionAt img 12, portSectionAt img 74, portSectionAt img 136, portSectionAt img 198 with
  | some a, some b, some c, some d => some ⟨a, b, c, d⟩
  | _, _, _, _ => none

/-- The settings of an image that passes every check of R178; none where the load fails. -/
def readImage (img : List Byte) : Option Image :=
  if img.length = Config.imageOctets ∧ headerOk img = true ∧ checkHolds img = true then
    match flagOf (octetAt img 4), RateMode.ofCode (octetAt img 5), Rate.ofCode (octetAt img 6),
        LineMode.ofCode (octetAt img 7), QuietSelection.ofCode (octetAt img 10), portSections img with
    | some on, some rm, some rate, some mode, some quiet, some secs =>
      if 50 ≤ (wordAt img 8).toNat ∧ (wordAt img 8).toNat ≤ 5000 then
        some ⟨on, rm, rate, mode, (wordAt img 8).toNat, quiet, secs⟩
      else none
    | _, _, _, _, _, _ => none
  else none

/-! ## Installation (R179, R180) -/

/-- A port section's values as the port's loaded defaults (R179). -/
def PortSection.defaults (x : PortSection) : PortDefaults :=
  ⟨x.windows, x.reserve, x.limit, x.policy, x.presenceInterval, x.mask⟩

/-- Per-port settings installed: current values and loaded defaults (R179, R180). -/
def installPorts (ds : Quad PortDefaults) (s : State) : State :=
  { s with
    ports := s.ports.mapPort (fun p u =>
      { u with presenceInterval := (ds.get p).presenceInterval, mask := (ds.get p).mask, defaults := ds.get p })
    windows := s.windows.mapPort (fun p _ => (ds.get p).windows)
    rx := s.rx.mapPort (fun p q => ⟨q.queue, (ds.get p).reserve, (ds.get p).limit, (ds.get p).policy⟩) }

/-- The line section installed; the trial rate equals the configured rate (R179; 01, R25). -/
def LineUnit.install (u : LineUnit) (rm : RateMode) (rate : Rate) (silence : Nat) (mode : LineMode) : LineUnit :=
  { u with rateMode := rm, configuredRate := rate, trialRate := rate, silenceTime := silence, mode := mode }

/-- The loader becomes READY, its time limit stopped, its transfer ended and the I2C bus released (R177 to R180). -/
def becomeReady (fault : Bool) (s : State) : State :=
  { s with loader := { s.loader with state := .ready, loadFault := fault, timer := none, transfer := [] } }

/-- The image installed in one step; the line starts when the image asks (R179). -/
def installImage (img : Image) (s : State) : State :=
  let s1 := installPorts (img.sections.mapPort (fun _ x => x.defaults)) s
  let s2 := becomeReady false
    { s1 with line := s1.line.install img.rateMode img.rate img.silenceTime img.mode,
              quiet := { s1.quiet with selection := img.quiet } }
  if img.lineOn then startLine s2 else s2

/-- The built-in defaults installed whole; LOAD_FAULT is `fault` (R180, Table 11-2). -/
def installBuiltIn (fault : Bool) (s : State) : State :=
  let s1 := installPorts (Quad.all PortDefaults.builtIn) s
  becomeReady fault
    { s1 with line := s1.line.install .auto .k400 1000 .normal, quiet := { s1.quiet with selection := .none } }

/-- An event of the loader, which acts while it is LOADING (R176, R177). -/
def whileLoading (f : State → State) (s : State) : State := if s.loader.state = .loading then f s else s

/-- The transfer is whole, and `img` holds the octets its reading phases took: the image is installed when every check holds; otherwise the load fails (R178 to R180). -/
def imageRead (img : List Byte) (s : State) : State :=
  match readImage img with
  | some i => installImage i s
  | none => installBuiltIn true s

/-- IMAGE_READ_COMPLETE (R178). -/
def execImageReadComplete (img : List Byte) (s : State) : Out :=
  .next (whenLive (whileLoading (imageRead img)) s)

/-- MISSING_ACKNOWLEDGE: the transfer is abandoned and the load fails at once (R178). -/
def execMissingAcknowledge (s : State) : Out := .next (whenLive (whileLoading (installBuiltIn true)) s)

/-! ## Device reset (R176, R177) -/

/-- The kind of a device reset: a power-on reset during which RESETn is also low is a power-on reset (R176). -/
def mergeKind (before : Option ResetKind) (kind : ResetKind) : ResetKind :=
  match before with
  | some .powerOn => .powerOn
  | some .pin | none => kind

/-- A device reset begins: an attempt under way ends without an outcome, a load is abandoned with its transfer, the hub is inert
(R176; 01, R25; log 11). -/
def resetStart (kind : ResetKind) (s : State) : State :=
  { s with resetting := some (mergeKind s.resetting kind), line := { s.line with inFlight := none, pendingMode := none },
           loader := { s.loader with timer := none, transfer := [] } }

/-- DEVICE_RESET_START (R176). -/
def execDeviceResetStart (kind : ResetKind) (s : State) : Out := .next (resetStart kind s)

/-- The detach cause a device reset records (R176; 09, R154). -/
def resetCause : ResetKind → DetachCause
  | .powerOn => .power
  | .pin => .pin

/-- Every block at its reset values, each selected port with a chip select that carries no command; the level of the QUIET
pin, the queue, the free values' count and the receiver's periods are not the hub's to reset (R176; log 2, log 7, log
11, log 16, log 27). -/
def resetValues (kind : ResetKind) (pins : PinsAtEnd) (s : State) : State :=
  { State.reset with
    ports := (Quad.all (PortUnit.atReset (resetCause kind))).mapPort (fun p u =>
      { u with staleSelect := decide (p ∈ pins.selected) })
    line := { LineUnit.atReset with receiverPeriod := s.line.receiverPeriod }
    quiet := ⟨.none, false, s.quiet.pin⟩
    loader := ⟨.ready, false, none, pins.straps, []⟩
    freeIndex := s.freeIndex
    pending := s.pending }

/-- The image memory's bus address: 50h, plus 2 for ADR1 and 1 for ADR0 (R177). -/
def Loader.busAddress (l : Loader) : Byte :=
  match l.straps.adr1, l.straps.adr0 with
  | false, false => 0x50
  | false, true => 0x51
  | true, false => 0x52
  | true, true => 0x53

/-- The transfer that reads the image from the memory at a bus address: the address for writing, the location 0000h, the address
for reading, and 262 octets, each but the last acknowledged (R177; log 20). -/
def imageTransfer (memory : Byte) : List BusPhase :=
  [.address memory false, .send 0x00, .send 0x00, .address memory true] ++
    List.replicate (Config.imageOctets - 1) (.read true) ++ [.read false]

/-- The load decision on the sampled LOADEN: low installs the built-in defaults in the same step, high starts the load and its
transfer (R177). -/
def loadDecision (s : State) : State :=
  if s.loader.straps.loaden then
    { s with loader :=
        { s.loader with
          state := .loading, timer := some Config.loadLimit, transfer := imageTransfer s.loader.busAddress } }
  else installBuiltIn false s

/-- The end of a device reset (R176, R177). -/
def resetEnd (pins : PinsAtEnd) (s : State) : State :=
  match s.resetting with
  | some kind => loadDecision (resetValues kind pins s)
  | none => s

/-- DEVICE_RESET_END (R176). -/
def execDeviceResetEnd (pins : PinsAtEnd) (s : State) : Out := .next (resetEnd pins s)

end Sys2Proof.Machine
end

