-- ==== Sys2Proof/Machine/Time.lean ====
section
/-! DEFINITION. The timebase and the expiries of the hub's timers (06, R93, and the chapters that own each timer; log 5). -/

namespace Sys2Proof.Machine

/-- The timers whose ends are events of their own. -/
inductive Expiry where
  | dwell | silence | window | load
  | presence (p : Port)
  | wake (p : Port)
  | acknowledge (p : Port)
  | slot (n : Nat)
  deriving DecidableEq, Repr

/-- A slot whose expiry has come: RUNNING or FINISHING at the end of its timer's interval (06, R94). -/
def Slot.expired (sl : Slot) : Bool := (sl.state == .running || sl.state == .finishing) && ended sl.nextExpiry

/-- The timer runs in its owner's state and its interval has ended. -/
def State.isDue (s : State) : Expiry → Bool
  | .dwell => s.line.state == .search && ended s.line.dwellTimer
  | .silence => s.line.state == .synced && ended s.line.silenceTimer
  | .window => match s.detector with | some m => m.left == 0 | none => false
  | .load => s.loader.state == .loading && ended s.loader.timer
  | .presence p => (s.unit p).state == .active && ended (s.unit p).presenceTimer
  | .wake p => (s.unit p).state == .dozing && ended (s.unit p).wakeTimer
  | .acknowledge p => (s.unit p).state == .waking && ended (s.unit p).ackTimer
  | .slot n => match s.slot n with | some sl => sl.expired | none => false

/-- The dwell timer's expiry: the next rate, the count at 0, the dwell restarted, a reception in progress abandoned (01,
R7). -/
def dwellExpiry (s : State) : State :=
  s.modLine (fun u =>
    { u.abandonReception with trialRate := u.trialRate.next, cleanCount := 0, dwellTimer := some Config.dwellTime })

/-- The silence timer's expiry: the silent flag, LINE_SILENT in ACTIVE ports, the timer stopped (01, R10). -/
def silenceExpiry (s : State) : State :=
  (s.modLine (fun u => { u with silentFlag := true, silenceTimer := none })).raiseActive .lineSilent

/-- The wake timer's expiry: it stops and presents TIMER to its port (08, R142). -/
def wakeTimerExpiry (p : Port) (s : State) : State :=
  present p .timer s.stamp (s.modUnit p (fun u => { u with wakeTimer := none }))

/-- What an expiry does, once its timer's interval has ended. -/
def expiryEffect (e : Expiry) (s : State) : State :=
  match e with
  | .dwell => dwellExpiry s
  | .silence => silenceExpiry s
  | .window => { s with detector := none }
  | .load => installBuiltIn true s
  | .presence p => teardown p .presence s
  | .wake p => wakeTimerExpiry p s
  | .acknowledge p => teardown p .wakeUnanswered s
  | .slot n => expire n s

/-- An expiry is taken when it is due; one that is not due does not occur (log 4, log 5). -/
def takeExpiry (e : Expiry) (s : State) : State := if s.isDue e then expiryEffect e s else s

/-- DWELL_EXPIRY (01, R7). -/
def execDwellExpiry (s : State) : Out := .next (whenLive (takeExpiry .dwell) s)

/-- SILENCE_EXPIRY (01, R10). -/
def execSilenceExpiry (s : State) : Out := .next (whenLive (takeExpiry .silence) s)

/-- GENERAL_WAKE_WINDOW_END (08, R143). -/
def execGeneralWakeWindowEnd (s : State) : Out := .next (whenLive (takeExpiry .window) s)

/-- LOAD_TIME_LIMIT (11, R177). -/
def execLoadTimeLimit (s : State) : Out := .next (whenLive (takeExpiry .load) s)

/-- PRESENCE_EXPIRY (09, R158). -/
def execPresenceExpiry (p : Port) (s : State) : Out := .next (whenLive (takeExpiry (.presence p)) s)

/-- WAKE_TIMER_EXPIRY (08, R142). -/
def execWakeTimerExpiry (p : Port) (s : State) : Out := .next (whenLive (takeExpiry (.wake p)) s)

/-- WAKE_ACKNOWLEDGE_EXPIRY (08, R146). -/
def execWakeAcknowledgeExpiry (p : Port) (s : State) : Out := .next (whenLive (takeExpiry (.acknowledge p)) s)

/-- SLOT_EXPIRY (06, R101). -/
def execSlotExpiry (n : Nat) (s : State) : Out := .next (whenLive (takeExpiry (.slot n)) s)

/-! ## The tick (06, R93) -/

/-- Every expiry of the hub. -/
def allExpiries : List Expiry :=
  [.dwell, .silence, .window, .load] ++ Port.list.map .presence ++ Port.list.map .wake ++ Port.list.map .acknowledge ++
    (List.range Config.slotCount).map .slot

/-- The expiries that are due. -/
def State.dueExpiries (s : State) : List Expiry := allExpiries.filter s.isDue

/-- The expiries still untaken when the next tick comes are taken before it; a free value picks which is first (log 5).
`fuel` bounds their number. -/
def settle : Nat → State → State
  | 0, s => s
  | fuel + 1, s =>
    match s.dueExpiries with
    | [] => s
    | [e] => settle fuel (takeExpiry e s)
    | e :: es =>
      settle fuel
        (takeExpiry ((e :: es).getD (Config.expiryChoice s.freeIndex % (e :: es).length) e) s.drawn)

/-- A port unit after one tick. -/
def PortUnit.tick (u : PortUnit) : PortUnit :=
  { u with presenceTimer := tickTimer u.presenceTimer, wakeTimer := tickTimer u.wakeTimer,
           ackTimer := tickTimer u.ackTimer }

/-- A slot after one tick. -/
def Slot.tick (sl : Slot) : Slot := { sl with nextExpiry := tickTimer sl.nextExpiry }

/-- The tick: the stamp counter rises by 1, modulo 65536, and every running timer has one tick less left (R93). -/
def advance (s : State) : State :=
  { s with
    stamp := s.stamp + 1
    ports := s.ports.mapPort (fun _ u => u.tick)
    slots := s.slots.map (Option.map Slot.tick)
    line := { s.line with dwellTimer := tickTimer s.line.dwellTimer, silenceTimer := tickTimer s.line.silenceTimer }
    detector := s.detector.map (fun m => { m with left := m.left - 1 })
    loader := { s.loader with timer := tickTimer s.loader.timer } }

/-- The number of the hub's expiries. -/
def expiryCount : Nat := 40

/-- TIMEBASE_TICK (R93). -/
def execTimebaseTick (s : State) : Out := .next (whenLive (fun t => advance (settle expiryCount t)) s)

end Sys2Proof.Machine
end

