-- ==== Sys2Proof/Machine/Transaction.lean ====
section
/-! DEFINITION. A transaction on a port, read octet by octet (12, R183), and the two rows that carry no known command. -/

namespace Sys2Proof.Machine

/-- The block's part of each command of Table 12-1. -/
def Command.body (p : Port) : Command → List Byte → State → Reply
  | .attach => attachBody p
  | .detach => detachBody p
  | .portReset => portResetBody p
  | .setPresence => setPresenceBody p
  | .doze => dozeBody p
  | .resume => resumeBody p
  | .readStatus => readStatusBody p
  | .readId => readIdBody
  | .takeEvents => takeEventsBody p
  | .setEventMask => setEventMaskBody p
  | .leaseTake => leaseTakeBody p
  | .leaseRelease => leaseReleaseBody p
  | .setWindow => setWindowBody p
  | .readWindow => readWindowBody p
  | .routeAdd => routeAddBody p
  | .routeRemove => routeRemoveBody p
  | .routeRead => routeReadBody
  | .routeList => routeListBody p
  | .fetch => fetchBody p
  | .flushRx => flushRxBody p
  | .setReserve => setReserveBody p
  | .readPool => readPoolBody
  | .send => sendBody p
  | .sendWake => sendWakeBody p
  | .txFlush => txFlushBody p
  | .txStatus => txStatusBody p
  | .slotCreate => slotCreateBody p
  | .slotConfigure => slotConfigureBody p
  | .slotStart => slotStartBody p
  | .slotStop => slotStopBody p
  | .slotRefresh => slotRefreshBody p
  | .slotSetPeriod => slotSetPeriodBody p
  | .slotRemove => slotRemoveBody p
  | .slotRead => slotReadBody
  | .standinAttach => standinAttachBody p
  | .standinRefresh => standinRefreshBody p
  | .standinDetach => standinDetachBody p
  | .lineSet => lineSetBody p
  | .lineOn => lineOnBody p
  | .lineOff => lineOffBody p
  | .lineResync => lineResyncBody p
  | .readLine => readLineBody
  | .quietConfig => quietConfigBody p
  | .quietClear => quietClearBody

/-- A transaction without a command of `n` octets: the holder is shifted out and stays (R150). -/
def noCommand (p : Port) (n : Nat) (s : State) : State := whenSelected p (fun t => t.shiftOut p n) s

/-- A transaction of port `p` that clocks in `octets`: no command where octet 0 is 00h or incomplete, UNKNOWN for a code
absent from Table 12-1, otherwise the command it names (R183). -/
def transaction (p : Port) (octets : List Byte) (s : State) : State :=
  match octets with
  | [] => noCommand p 0 s
  | code :: rest =>
    if code = 0 then noCommand p (rest.length + 1) s
    else
      match Command.ofCode code with
      | none => carried p (rest.length + 1) (fun t => refuse t .unknown) s
      | some c => portCommand c p rest (c.body p) s

/-- TRANSACTION_WITHOUT_COMMAND (R150, R183). -/
def execTransactionWithoutCommand (p : Port) (octets : List Byte) (s : State) : Out := .next (transaction p octets s)

/-- UNKNOWN_COMMAND (R183). -/
def execUnknownCommand (p : Port) (code : Byte) (rest : List Byte) (s : State) : Out :=
  .next (transaction p (code :: rest) s)

end Sys2Proof.Machine
end

