-- ==== Sys2Proof/Machine/Dispatch.lean ====
section
/-! DEFINITION. The dispatch: one arm for each command, each one call of its meaning. -/

namespace Sys2Proof.Machine

def exec (i : Instr) (s : State) : Host.Outcome State Fault Refusal :=
  match i with
  | .transactionWithoutCommand p octets => Sys2Proof.Machine.execTransactionWithoutCommand p octets s
  | .unknownCommand p code rest => Sys2Proof.Machine.execUnknownCommand p code rest s
  | .attach p rest => Sys2Proof.Machine.execAttach p rest s
  | .detach p rest => Sys2Proof.Machine.execDetach p rest s
  | .portReset p rest => Sys2Proof.Machine.execPortReset p rest s
  | .setPresence p rest => Sys2Proof.Machine.execSetPresence p rest s
  | .doze p rest => Sys2Proof.Machine.execDoze p rest s
  | .resume p rest => Sys2Proof.Machine.execResume p rest s
  | .readStatus p rest => Sys2Proof.Machine.execReadStatus p rest s
  | .readId p rest => Sys2Proof.Machine.execReadId p rest s
  | .takeEvents p rest => Sys2Proof.Machine.execTakeEvents p rest s
  | .setEventMask p rest => Sys2Proof.Machine.execSetEventMask p rest s
  | .leaseTake p rest => Sys2Proof.Machine.execLeaseTake p rest s
  | .leaseRelease p rest => Sys2Proof.Machine.execLeaseRelease p rest s
  | .setWindow p rest => Sys2Proof.Machine.execSetWindow p rest s
  | .readWindow p rest => Sys2Proof.Machine.execReadWindow p rest s
  | .routeAdd p rest => Sys2Proof.Machine.execRouteAdd p rest s
  | .routeRemove p rest => Sys2Proof.Machine.execRouteRemove p rest s
  | .routeRead p rest => Sys2Proof.Machine.execRouteRead p rest s
  | .routeList p rest => Sys2Proof.Machine.execRouteList p rest s
  | .fetch p rest => Sys2Proof.Machine.execFetch p rest s
  | .flushRx p rest => Sys2Proof.Machine.execFlushRx p rest s
  | .setReserve p rest => Sys2Proof.Machine.execSetReserve p rest s
  | .readPool p rest => Sys2Proof.Machine.execReadPool p rest s
  | .send p rest => Sys2Proof.Machine.execSend p rest s
  | .sendWake p rest => Sys2Proof.Machine.execSendWake p rest s
  | .txFlush p rest => Sys2Proof.Machine.execTxFlush p rest s
  | .txStatus p rest => Sys2Proof.Machine.execTxStatus p rest s
  | .slotCreate p rest => Sys2Proof.Machine.execSlotCreate p rest s
  | .slotConfigure p rest => Sys2Proof.Machine.execSlotConfigure p rest s
  | .slotStart p rest => Sys2Proof.Machine.execSlotStart p rest s
  | .slotStop p rest => Sys2Proof.Machine.execSlotStop p rest s
  | .slotRefresh p rest => Sys2Proof.Machine.execSlotRefresh p rest s
  | .slotSetPeriod p rest => Sys2Proof.Machine.execSlotSetPeriod p rest s
  | .slotRemove p rest => Sys2Proof.Machine.execSlotRemove p rest s
  | .slotRead p rest => Sys2Proof.Machine.execSlotRead p rest s
  | .standinAttach p rest => Sys2Proof.Machine.execStandinAttach p rest s
  | .standinRefresh p rest => Sys2Proof.Machine.execStandinRefresh p rest s
  | .standinDetach p rest => Sys2Proof.Machine.execStandinDetach p rest s
  | .lineSet p rest => Sys2Proof.Machine.execLineSet p rest s
  | .lineOn p rest => Sys2Proof.Machine.execLineOn p rest s
  | .lineOff p rest => Sys2Proof.Machine.execLineOff p rest s
  | .lineResync p rest => Sys2Proof.Machine.execLineResync p rest s
  | .readLine p rest => Sys2Proof.Machine.execReadLine p rest s
  | .quietConfig p rest => Sys2Proof.Machine.execQuietConfig p rest s
  | .quietClear p rest => Sys2Proof.Machine.execQuietClear p rest s
  | .receptionEnd activity => Sys2Proof.Machine.execReceptionEnd activity s
  | .generalWakeWindowEnd => Sys2Proof.Machine.execGeneralWakeWindowEnd s
  | .dwellExpiry => Sys2Proof.Machine.execDwellExpiry s
  | .silenceExpiry => Sys2Proof.Machine.execSilenceExpiry s
  | .transmissionStart => Sys2Proof.Machine.execTransmissionStart s
  | .contentionLoss winner => Sys2Proof.Machine.execContentionLoss winner s
  | .echoError => Sys2Proof.Machine.execEchoError s
  | .attemptSent => Sys2Proof.Machine.execAttemptSent s
  | .slotExpiry slot => Sys2Proof.Machine.execSlotExpiry slot s
  | .triggerEdge pin sense => Sys2Proof.Machine.execTriggerEdge pin sense s
  | .quietEdge sense => Sys2Proof.Machine.execQuietEdge sense s
  | .timebaseTick => Sys2Proof.Machine.execTimebaseTick s
  | .presenceExpiry p => Sys2Proof.Machine.execPresenceExpiry p s
  | .wakeTimerExpiry p => Sys2Proof.Machine.execWakeTimerExpiry p s
  | .wakeAcknowledgeExpiry p => Sys2Proof.Machine.execWakeAcknowledgeExpiry p s
  | .deviceResetStart kind => Sys2Proof.Machine.execDeviceResetStart kind s
  | .deviceResetEnd pins => Sys2Proof.Machine.execDeviceResetEnd pins s
  | .imageReadComplete image => Sys2Proof.Machine.execImageReadComplete image s
  | .missingAcknowledge => Sys2Proof.Machine.execMissingAcknowledge s
  | .loadTimeLimit => Sys2Proof.Machine.execLoadTimeLimit s

end Sys2Proof.Machine
end

