-- ==== Sys2Proof/Machine/Step.lean ====
section
/-! DEFINITION. One step of the hub: the command at the front of the queue, or nothing on an empty queue (log 3). -/

namespace Sys2Proof.Machine

/-- One step: the command at the front of the queue is executed on the state with the queue's rest; on an empty queue the
hub idles (log 3). -/
def step (s : State) : Host.Outcome State Fault Refusal :=
  match s.pending with
  | [] => .next s
  | c :: rest => exec c { s with pending := rest }

/-- `s` with the command a table word spells put at the front of its queue; the table gives no row any bits, so no word
spells one and `s` stands (log 3). -/
def State.withFetchWord (s : State) (nbits w : Nat) : State :=
  match decodeTableWord nbits w with
  | some c => { s with pending := c :: s.pending }
  | none => s

end Sys2Proof.Machine
end

