-- ==== Sys2Proof/Safety.lean ====
section
/-! DEFINITION. What the claims say about the hub: when it takes commands, the row and the code of each command of Table
12-1, and the invariants the manual gives its blocks. -/

namespace Sys2Proof.Machine

/-! ## Words of the claims -/

/-- A chip select of port `p` is a transaction: no device reset lasts, and it is not the one that was under way when the last
ended (11, R176). -/
abbrev State.Listens (s : State) (p : Port) : Prop := s.resetting = none ∧ (s.unit p).staleSelect = false

/-- The hub takes commands from port `p`: the port listens and the loader is READY (09, R151; 11, R176, R177). -/
abbrev State.Ready (s : State) (p : Port) : Prop := s.Listens p ∧ s.loader.state = .ready

/-- Port `p` is ACTIVE in a hub that takes its commands. -/
abbrev State.Active (s : State) (p : Port) : Prop := s.Ready p ∧ (s.unit p).state = .active

/-- The command code of each command (12, Table 12-1). -/
def Command.code : Command → Byte
  | .attach => 0x01
  | .detach => 0x02
  | .portReset => 0x03
  | .setPresence => 0x04
  | .doze => 0x05
  | .resume => 0x06
  | .readStatus => 0x07
  | .readId => 0x08
  | .takeEvents => 0x09
  | .setEventMask => 0x0A
  | .leaseTake => 0x0B
  | .leaseRelease => 0x0C
  | .setWindow => 0x10
  | .readWindow => 0x11
  | .routeAdd => 0x18
  | .routeRemove => 0x19
  | .routeRead => 0x1A
  | .routeList => 0x1B
  | .fetch => 0x20
  | .flushRx => 0x21
  | .setReserve => 0x22
  | .readPool => 0x23
  | .send => 0x28
  | .sendWake => 0x29
  | .txFlush => 0x2A
  | .txStatus => 0x2B
  | .slotCreate => 0x30
  | .slotConfigure => 0x31
  | .slotStart => 0x32
  | .slotStop => 0x33
  | .slotRefresh => 0x34
  | .slotSetPeriod => 0x35
  | .slotRemove => 0x36
  | .slotRead => 0x37
  | .standinAttach => 0x38
  | .standinRefresh => 0x39
  | .standinDetach => 0x3A
  | .lineSet => 0x40
  | .lineOn => 0x41
  | .lineOff => 0x42
  | .lineResync => 0x43
  | .readLine => 0x44
  | .quietConfig => 0x48
  | .quietClear => 0x49

/-- The row of the table for each command, sent by port `p` with the octets `rest` after the code. -/
def Command.row (p : Port) (rest : List Byte) : Command → Instr
  | .attach => .attach p rest
  | .detach => .detach p rest
  | .portReset => .portReset p rest
  | .setPresence => .setPresence p rest
  | .doze => .doze p rest
  | .resume => .resume p rest
  | .readStatus => .readStatus p rest
  | .readId => .readId p rest
  | .takeEvents => .takeEvents p rest
  | .setEventMask => .setEventMask p rest
  | .leaseTake => .leaseTake p rest
  | .leaseRelease => .leaseRelease p rest
  | .setWindow => .setWindow p rest
  | .readWindow => .readWindow p rest
  | .routeAdd => .routeAdd p rest
  | .routeRemove => .routeRemove p rest
  | .routeRead => .routeRead p rest
  | .routeList => .routeList p rest
  | .fetch => .fetch p rest
  | .flushRx => .flushRx p rest
  | .setReserve => .setReserve p rest
  | .readPool => .readPool p rest
  | .send => .send p rest
  | .sendWake => .sendWake p rest
  | .txFlush => .txFlush p rest
  | .txStatus => .txStatus p rest
  | .slotCreate => .slotCreate p rest
  | .slotConfigure => .slotConfigure p rest
  | .slotStart => .slotStart p rest
  | .slotStop => .slotStop p rest
  | .slotRefresh => .slotRefresh p rest
  | .slotSetPeriod => .slotSetPeriod p rest
  | .slotRemove => .slotRemove p rest
  | .slotRead => .slotRead p rest
  | .standinAttach => .standinAttach p rest
  | .standinRefresh => .standinRefresh p rest
  | .standinDetach => .standinDetach p rest
  | .lineSet => .lineSet p rest
  | .lineOn => .lineOn p rest
  | .lineOff => .lineOff p rest
  | .lineResync => .lineResync p rest
  | .readLine => .readLine p rest
  | .quietConfig => .quietConfig p rest
  | .quietClear => .quietClear p rest

/-- The octets after the command code that carry the parameters `ps`, with filler behind the envelope (12, R182, R183). -/
def clockedIn (ps filler : List Byte) : List Byte := envelope ps ++ filler

/-- The state a command of port `p` finds: the holder has been shifted out for the transaction's octets, and in ACTIVE the
presence timer has restarted (09, R150, R158). `rest` is what followed the code. -/
def State.found (s : State) (p : Port) (rest : List Byte) : State := s.heard p (rest.length + 1)

/-- The state that a command of port `p` leaves when it changes nothing but the answer it gets (09, R151). -/
def State.answered (s : State) (p : Port) (rest : List Byte) (r : Response) : State :=
  (s.found p rest).setHolder p r

/-! ## Invariants -/

/-- The lease holder is ACTIVE at every moment (09, R167). -/
def LeaseSafe (s : State) : Prop := ∀ p, s.line.lease = some p → (s.unit p).state = .active

/-- The counter, the consecutive-clean count, the dwell timer and the silence timer stand as the line state allows (01,
Table 1-2, R5, R6, R8 to R10, R23; after a start in FIXED or AUTO, log 21). -/
def LineSafe (s : State) : Prop :=
  (match s.line.state with
    | .off | .search => s.line.errorCount = 0
    | .synced => s.line.errorCount < Config.errorLimit
    | .degraded => s.line.errorCount = Config.errorLimit) ∧
  s.line.cleanCount ≤ 1 ∧ (s.line.state ≠ .search → s.line.cleanCount = 0) ∧
  (s.line.dwellTimer.isSome = true ↔ s.line.state = .search) ∧
  (s.line.state ≠ .synced → s.line.silenceTimer = none ∧ s.line.silentFlag = false) ∧
  (s.line.state = .synced → s.line.silentFlag = s.line.silenceTimer.isNone)

/-- The hub drives the line only in SYNCED, in line mode NORMAL, with the quiet latch clear; a pending line mode stands only
beside a transmission in flight; the line is OFF while the loader is LOADING (01, R13, R14, R25; 10, R172). -/
def DriveSafe (s : State) : Prop :=
  (s.line.inFlight.isSome = true → s.line.state = .synced ∧ s.line.mode = .normal ∧ s.quiet.latch = false) ∧
  (∀ m, s.line.pendingMode = some m → s.line.inFlight.isSome = true ∧ m ≠ .normal) ∧
  (s.loader.state = .loading → s.line.state = .off)

/-- Outside a device reset and while the loader is LOADING, and then alone, the time limit runs and the transfer that
reads the image is under way on the I2C bus (11, R176, R177; whole, log 20; the limit stopped as a device reset begins,
log 11). -/
def LoaderSafe (s : State) : Prop :=
  let loads := s.resetting = none ∧ s.loader.state = .loading
  (loads → s.loader.transfer = imageTransfer s.loader.busAddress) ∧ (¬loads → s.loader.transfer = []) ∧
    (s.loader.timer.isSome = true ↔ loads)

/-- Every window of every port, current or loaded default, has its base and map inside its mask, and a port has eight of
them (02, R26, R33). -/
def WindowsSafe (s : State) : Prop :=
  ∀ p, ((s.windows.get p).length = Config.windowCount ∧ ∀ w ∈ s.windows.get p, w.inMask = true) ∧
    ((s.unit p).defaults.windows.length = Config.windowCount ∧ ∀ w ∈ (s.unit p).defaults.windows, w.inMask = true)

/-- What holds within every live route entry (03, Table 3-1, R36). -/
def RouteEntry.Sound (e : RouteEntry) : Prop :=
  e.patternOk = true ∧ e.rank ≤ 15 ∧ (e.wake = true → e.hold = true) ∧
  (match e.lengthTest with | .any => True | .exact n => n ≤ Config.maxPayload) ∧
  (match e.dataTest with | .equal mask value => maskOctets value mask = value | .none | .anySet _ => True)

/-- The route table has 64 entries, no port owns more than 32, and every live entry is sound (03, R35, R36). -/
def RoutesSafe (s : State) : Prop :=
  s.routes.length = Config.routeEntries ∧ (∀ p, s.routeCount p ≤ Config.routesPerPort) ∧
    ∀ e, some e ∈ s.routes → e.Sound

/-- A reserve and a limit are in the ranges of Table 4-1. -/
def poolSettingsOk (reserve limit : Nat) : Prop := reserve ≤ 32 ∧ 1 ≤ limit ∧ limit ≤ 128 ∧ reserve ≤ limit

/-- The free buffers cover the outstanding reserve, the queues together hold at most 128 records, and every setting is in
its range (04, R57, R58, Table 4-1). While the loader is LOADING nothing is received or sent and every receive queue is
empty (04, R72; 11, R177). -/
def PoolSafe (s : State) : Prop :=
  s.outstanding ≤ s.freeCount ∧ sumPorts s.occupancy ≤ Config.poolBuffers ∧
  (∀ p, poolSettingsOk (s.rx.get p).reserve (s.rx.get p).limit ∧
    poolSettingsOk (s.unit p).defaults.reserve (s.unit p).defaults.limit) ∧
  (s.loader.state = .loading →
    s.line.state = .off ∧ s.line.inFlight = none ∧ ∀ p, (s.rx.get p).queue = [])

/-- A queue entry as Table 5-1 and R1 allow it: fewer than 16 attempts, at most 16 octets, and kind WAKE exactly with line
label 0. -/
def TxEntry.Sound (e : TxEntry) : Prop :=
  e.attempts < Config.attemptLimit ∧ e.payload.length ≤ Config.maxPayload ∧ (e.kind = .wake ↔ e.lineLabel = 0) ∧
    (e.kind = .wake → e.payload = [])

/-- No transmit queue holds more than 8 entries, each is sound, and exactly a non-empty queue has a head candidacy (05, R74,
R75, R81; 01, R1). -/
def TxSafe (s : State) : Prop :=
  ∀ p, (s.tx.get p).entries.length ≤ Config.txDepth ∧ (∀ e ∈ (s.tx.get p).entries, e.Sound) ∧
    ((s.tx.get p).headSince.isSome = true ↔ (s.tx.get p).entries ≠ [])

/-- A DETACHED port owns no route entry, slot or stand-in, does not hold the lease, has empty queues and clear flags; and no
stand-in belongs to its slot's owner; there are 24 slots (06, R91; 07, R120; 09, R160, R162). -/
def OwnershipSafe (s : State) : Prop :=
  s.slots.length = Config.slotCount ∧
  (∀ p, (s.unit p).state = .detached →
    s.line.lease ≠ some p ∧ (s.rx.get p).queue = [] ∧ (s.tx.get p).entries = [] ∧ (s.unit p).flags = 0 ∧
    (∀ e, some e ∈ s.routes → e.owner ≠ p) ∧
    (∀ sl, some sl ∈ s.slots → sl.owner ≠ p ∧ ∀ si, sl.standIn = some si → si.port ≠ p)) ∧
  (∀ sl, some sl ∈ s.slots → ∀ si, sl.standIn = some si → si.port ≠ sl.owner)

/-- The expiry timer runs in RUNNING and FINISHING alone (06, R94). -/
def SlotState.runs : SlotState → Bool
  | .running | .finishing => true
  | .stopped | .armed | .halted _ => false

/-- What holds of every live slot beside a quiet latch `latch` (06, Table 6-1, R91, R94, R107, R115; 07, Table 7-1). -/
def Slot.Sound (latch : Bool) (sl : Slot) : Prop :=
  sl.lineLabel ≠ 0 ∧ 1 ≤ sl.period ∧ sl.period ≤ Config.maxPeriod ∧ sl.offset < sl.period ∧
  (∀ q, sl.pendingPeriod = some q → sl.offset < q ∧ q ≤ Config.maxPeriod) ∧
  1 ≤ sl.takeoverAfter ∧ sl.takeoverAfter ≤ 7 ∧ sl.staleRun ≤ Config.runLimit ∧ sl.overruns ≤ Config.runLimit ∧
  (sl.nextExpiry.isSome = true ↔ sl.state.runs = true) ∧
  (∀ d, sl.due = some d → d.attempts < Config.attemptLimit) ∧
  (∀ si, sl.standIn = some si → si.coveredRun ≤ 7) ∧
  (sl.source ≠ .command → sl.edge.isSome = true) ∧
  (match sl.state with
    | .stopped => True
    | .armed | .running | .finishing => latch = false
    | .halted _ => latch = true) ∧
  (latch = true → sl.due = none)

/-- There are 24 slots, every live one is sound, and no two live slots carry the same line label (06, R91). -/
def SlotsSafe (s : State) : Prop :=
  s.slots.length = Config.slotCount ∧ (∀ sl, some sl ∈ s.slots → sl.Sound s.quiet.latch) ∧
    ∀ m n x y, s.slot m = some x → s.slot n = some y → x.lineLabel = y.lineLabel → m = n

/-- A port's timers, wake set and wake record stand as its state allows (08, R133, R135, R142, R145, R147; 09, R158). -/
def PortUnit.Sound (u : PortUnit) : Prop :=
  (u.presenceTimer.isSome = true → u.state = .active) ∧ (u.wakeTimer.isSome = true → u.state = .dozing) ∧
  (u.ackTimer.isSome = true ↔ u.state = .waking) ∧ (u.wakeRecord.isSome = true ↔ u.state = .waking) ∧
  (u.wakeSet ≠ WakeSet.empty → u.state = .dozing ∨ u.state = .waking)

/-- Every port unit is sound. -/
def WakeSafe (s : State) : Prop := ∀ p, (s.unit p).Sound

end Sys2Proof.Machine
end

