-- ==== Sys2Proof/Certificates/Slice0/Obligations.lean ====
section
/-! DEFINITION. The statements for the provers, chapter by chapter. -/

open Sys2Proof Sys2Proof.Machine

/-! ## The queue and the outcomes -/

/-- One step: the command at the front of the queue is executed on the state with the queue's rest (the queue is the
model's, log 3). -/
def Obligations.StepTakesTheFront : Prop :=
  ∀ (c : Instr) (rest : List Instr) (s : State),
    step { s with pending := c :: rest } = exec c { s with pending := rest }

/-- Every command answers a next state and leaves the queue to the step: the manual stops the hub nowhere (log 19). -/
def Obligations.EveryCommandAnswers : Prop :=
  ∀ (c : Instr) (s : State), ∃ t, exec c s = .next t ∧ t.pending = s.pending

/-- What the manual gives every block after a device reset by power-on with LOADEN low (01, R25; 02, R33; 03, R37; 04,
R72; 05, R90; 06, R119; 08, R133; 09, R150, R152, R154; 10, R170; 11, R180). The straps and the kind of reset are the
model's choice, log 1; so is the mask FFFFh for "every flag enabled": that 1 enables a flag, log 30. -/
def Obligations.ResetValues : Prop :=
  (∀ p, (State.reset.unit p).state = .detached ∧ (State.reset.unit p).detachCause = .power ∧
      (State.reset.unit p).holder.octets = [0x01, 0x00] ∧ (State.reset.unit p).flags = 0 ∧
      (State.reset.unit p).mask = 0xFFFF#16 ∧ (State.reset.unit p).presenceInterval = 0 ∧
      (State.reset.unit p).presenceTimer = none ∧ (State.reset.unit p).wakeSet = WakeSet.empty ∧
      (State.reset.unit p).wakePeriod = none ∧ (State.reset.unit p).wakeTimer = none ∧
      (State.reset.unit p).ackTimer = none ∧ (State.reset.unit p).wakeRecord = none ∧
      State.reset.windows.get p = Window.identity :: List.replicate 7 Window.blank ∧
      (State.reset.unit p).defaults.windows = State.reset.windows.get p ∧
      (State.reset.rx.get p) = ⟨[], 16, 64, .dropNewest⟩ ∧ (State.reset.tx.get p).entries = []) ∧
  (∀ n, State.reset.route n = none) ∧ (∀ n, State.reset.slot n = none) ∧
  State.reset.line.state = .off ∧ State.reset.line.rateMode = .auto ∧ State.reset.line.configuredRate = .k400 ∧
  State.reset.line.trialRate = .k400 ∧ State.reset.line.silenceTime = 1000 ∧ State.reset.line.mode = .normal ∧
  State.reset.line.pendingMode = none ∧ State.reset.line.inFlight = none ∧ State.reset.line.lease = none ∧
  State.reset.line.errorCount = 0 ∧ State.reset.line.cleanCount = 0 ∧ State.reset.line.dwellTimer = none ∧
  State.reset.line.silenceTimer = none ∧ State.reset.line.silentFlag = false ∧
  State.reset.detector = none ∧ State.reset.quiet.selection = .none ∧ State.reset.quiet.latch = false ∧
  State.reset.loader.state = .ready ∧ State.reset.loader.loadFault = false ∧ State.reset.stamp = 0 ∧
  State.reset.freeCount = 128 ∧ State.reset.outstanding = 64

/-! ## The telegram on the line (01, R1, R2; 12, R185) -/

/-- Line activity is judged coding before format, format before check, and otherwise gives the telegram its octets spell
(01, R1, R2; 12, Table 12-6, R185; the steps of the check sequence are the model's reading, log 25). -/
def Obligations.ReceptionJudged : Prop :=
  ∀ act : LineActivity,
    let os := act.octets
    let n := (octetAt os 2).toNat
    let kind := (wordAt os 0).toNat % 4
    let label := (wordAt os 0).toNat / 4
    let coding := act.broken = true ∨ os.length < 3 ∨ os.length ≠ 5 + n
    let format := kind = 3 ∨ 16 < n ∨ (kind = 2 ∧ label = 0 ∧ n ≠ 0)
    let check := wordAt os (3 + n) ≠ checkSequence (os.take (3 + n))
    (coding → judge act = .codingError) ∧
    (¬coding → format → judge act = .formatError) ∧
    (¬coding → ¬format → check → judge act = .checkError) ∧
    (¬coding → ¬format → ¬check →
      ∃ t, judge act = .clean t ∧ t.kind.code.toNat = kind ∧ t.label.toNat = label ∧ t.payload = (os.drop 3).take n)

/-- A well-formed telegram, sent as its octets, is received clean and whole (01, R1, R2; 12, R185). Its check sequence:
the register is preset to FFFFh and takes the octets in order, each from bit 7 down to bit 0; where a bit differs from
the top bit of the register the register is shifted left and 1021h added, and otherwise it is shifted left. That R185's
"shifted through it" means these steps is the model's reading, log 25. -/
def Obligations.TelegramRoundTrip : Prop :=
  (∀ (t : Telegram) (began : Nat), t.wellFormed = true → judge ⟨began, false, t.octets⟩ = .clean t) ∧
  checkSequence [] = 0xFFFF#16 ∧
  (∀ (message : List Byte) (b : Byte),
    let step (reg : Word16) (k : Nat) : Word16 :=
      if reg.getLsbD 15 = b.getLsbD k then reg <<< 1 else (reg <<< 1) ^^^ 0x1021#16
    checkSequence (message ++ [b]) = [7, 6, 5, 4, 3, 2, 1, 0].foldl step (checkSequence message))

/-! ## Transactions (09, R150, R151, R153; 12, R182, R183) -/

/-- The envelope: of the octets after the code the first is the length n, the next n are the parameters, filler is
ignored; a transaction that ends too early, or whose length is not the one required, is malformed (12, R182, R183). -/
def Obligations.EnvelopeJudged : Prop :=
  (∀ (len : FrameLen) (ps filler : List Byte), ps.length ≤ 255 →
    parameters len (oct ps.length :: ps ++ filler) = if len.accepts ps then some ps else none) ∧
  (∀ len : FrameLen, parameters len [] = none) ∧
  (∀ (len : FrameLen) (n : Byte) (more : List Byte), more.length < n.toNat → parameters len (n :: more) = none) ∧
  (∀ (k : Nat) (ps : List Byte), (FrameLen.fixed k).accepts ps = true ↔ ps.length = k) ∧
  (∀ (k : Nat) (ps : List Byte),
    (FrameLen.payload k).accepts ps = true ↔ k ≤ ps.length ∧ ps.length = k + (octetAt ps (k - 1)).toNat)

/-- Each of the 44 command rows is the transaction that clocks in its code of Table 12-1, then its octets (12, R183). The
octets of the records: a number of two octets goes most significant octet first, a set has bit 0 for its first member,
and the result codes and the named values have the codes of the tables (09, Table 9-1; 12, R182, Table 12-3); a wake
record is its cause, its stamp and its entry, FFh for a cause other than ROUTE, and 0 for the stamp of NONE (12, after
Table 12-2). -/
def Obligations.RowsCarryTheirCodes : Prop :=
  (∀ (c : Command) (p : Port) (rest : List Byte) (s : State),
    exec (c.row p rest) s = .next (transaction p (c.code :: rest) s)) ∧
  ((∀ n, (oct n).toNat = n % 256) ∧ (∀ w : Word16, (octets2 w).map BitVec.toNat = [w.toNat / 256, w.toNat % 256]) ∧
    (∀ n, (count2 n).map BitVec.toNat = [n / 256 % 256, n % 256]) ∧
    (∀ l : Label, (label2 l).map BitVec.toNat = [l.toNat / 256, l.toNat % 256]) ∧
    (∀ b0 b1 b2 b3 : Bool,
      setOctet b0 b1 b2 b3 = BitVec.ofNat 8 (b0.toNat + 2 * b1.toNat + 4 * b2.toNat + 8 * b3.toNat)) ∧
    (∀ b : Bool, flagOctet b = if b then 1 else 0)) ∧
  ([ResultCode.ok, .idle, .notReady, .unknown, .format, .notAttached, .asleep, .wrongState, .noWindow, .notPermitted,
      .labelReserved, .labelInUse, .queueFull, .queueEmpty, .tableFull, .portLimit, .slotFull, .badIndex, .notOwner,
      .badPattern, .outOfRange, .leaseHeld, .noLease, .reserveUnavailable, .standinTaken, .quietActive].map
        (fun r => r.code.toNat) = List.range 26 ∧
    ∀ r : Response, r.octets = r.code.code :: oct r.data.length :: r.data) ∧
  ([Kind.data, .query, .wake].map Kind.code = [0, 1, 2] ∧
    [some Port.a, some .b, some .c, some .d, none].map portOptCode = [0, 1, 2, 3, 0xFF] ∧
    (∀ p : Port, portCode p = portOptCode (some p)) ∧
    [PortState.detached, .active, .dozing, .waking].map PortState.code = [0, 1, 2, 3] ∧
    [DetachCause.none, .power, .pin, .requested, .presence, .reset, .wakeUnanswered].map DetachCause.code =
      [0, 1, 2, 3, 4, 5, 6] ∧
    (∀ w : WakeSet, w.octet = setOctet w.selective w.general w.timer false) ∧
    [LineState.off, .search, .synced, .degraded].map LineState.code = [0, 1, 2, 3] ∧
    [RateMode.auto, .fixed].map RateMode.code = [0, 1] ∧ [Rate.k100, .k200, .k400, .k800].map Rate.code = [0, 1, 2, 3] ∧
    [LineMode.normal, .listenOnly, .loopback].map LineMode.code = [0, 1, 2] ∧
    [none, some SlotEdge.rising, some .falling, some .both].map SlotEdge.optCode = [0, 1, 2, 3] ∧
    [Policy.dropNewest, .dropOldest].map Policy.code = [0, 1] ∧
    (∀ k : KindSet, k.octet = setOctet k.data k.query k.wake false) ∧
    LengthTest.any.code = 0xFF ∧ (∀ n, (LengthTest.exact n).code = oct n) ∧
    (∀ mask value, [DataTest.none, .anySet mask, .equal mask value].map DataTest.code = [0, 1, 2]) ∧
    [Action.deliver, .discard].map Action.code = [0, 1] ∧
    [SlotState.stopped, .armed, .running, .finishing].map SlotState.code = [0, 1, 2, 3] ∧
    (∀ h, (SlotState.halted h).code = 4) ∧
    [HeldState.armed, .running, .finishing].map (fun h => (SlotState.halted h).heldCode) = [1, 2, 3] ∧
    [SlotState.stopped, .armed, .running, .finishing].map SlotState.heldCode = [0xFF, 0xFF, 0xFF, 0xFF] ∧
    [SlotMode.repeating, .oneShot].map SlotMode.code = [0, 1] ∧
    [StartSource.command, .trigger .trig0, .trigger .trig1].map StartSource.code = [0, 1, 2] ∧
    [TriggerAction.start, .reanchor].map TriggerAction.code = [0, 1]) ∧
  (wakeRecordOctets none = [0, 0, 0, 0xFF] ∧
    ∀ (entry : Nat) (stamp : Stamp),
      wakeRecordOctets (some ⟨.route entry, stamp⟩) = [1] ++ octets2 stamp ++ [oct entry] ∧
      wakeRecordOctets (some ⟨.general, stamp⟩) = [2] ++ octets2 stamp ++ [0xFF] ∧
      wakeRecordOctets (some ⟨.timer, stamp⟩) = [3] ++ octets2 stamp ++ [0xFF] ∧
      wakeRecordOctets (some ⟨.line, stamp⟩) = [4] ++ octets2 stamp ++ [0xFF] ∧
      wakeRecordOctets (some ⟨.pending, stamp⟩) = [5] ++ octets2 stamp ++ [0xFF])

/-- A refused command changes nothing but its port's holder, the octets shifted out and, in ACTIVE, the presence timer;
its response has no data, except LEASE_HELD's (09, R151; 12, R183). -/
def Obligations.RefusedChangesNothing : Prop :=
  ∀ (p : Port) (code : Byte) (rest : List Byte) (s : State),
    s.Listens p → code ≠ 0 →
    let t := transaction p (code :: rest) s
    (t.unit p).holder.code ≠ .ok →
    t = s.answered p rest (t.unit p).holder ∧
      ((t.unit p).holder.code ≠ .leaseHeld → (t.unit p).holder.data = [])

/-- The port unit's checks in their order: NOT_READY, UNKNOWN, FORMAT, the state check; and the state check is Table 9-2:
which commands each port state accepts, and the result for the others (09, R151, R153; 11, R177). -/
def Obligations.ChecksBeforeTheBlock : Prop :=
  (∀ (p : Port) (rest : List Byte) (s : State), s.Listens p →
    (s.loader.state = .loading →
      (∀ code, isUnknownCode code = true →
        exec (.unknownCommand p code rest) s = .next (s.answered p rest ⟨.notReady, []⟩)) ∧
      (∀ c : Command, exec (c.row p rest) s = .next (s.answered p rest ⟨.notReady, []⟩))) ∧
    (s.loader.state = .ready →
      (∀ code, isUnknownCode code = true →
        exec (.unknownCommand p code rest) s = .next (s.answered p rest ⟨.unknown, []⟩)) ∧
      (∀ c : Command, parameters c.frame rest = none →
        exec (c.row p rest) s = .next (s.answered p rest ⟨.format, []⟩)) ∧
      (∀ (c : Command) (ps : List Byte) (r : ResultCode), parameters c.frame rest = some ps →
        stateCheck c (s.unit p).state = some r →
        exec (c.row p rest) s = .next (s.answered p rest ⟨r, []⟩)))) ∧
  ((∀ c : Command, stateCheck c .detached =
    if c ∈ [.attach, .readId, .readStatus, .portReset, .setWindow, .readWindow] then none else some .notAttached) ∧
  (∀ c : Command, stateCheck c .active = if c ∈ [.attach, .resume] then some .wrongState else none) ∧
  (∀ c : Command, stateCheck c .dozing =
    if c ∈ [.resume, .readStatus, .readId, .portReset] then none else some .asleep) ∧
  (∀ c : Command, stateCheck c .waking = stateCheck c .dozing))

/-- A transaction that carries no command shifts the holder out, FFh behind it, and leaves the holder and everything else
as they were. One that carries a command does the same to its port before the command is looked at, and in ACTIVE alone
restarts the presence timer with the full interval, or leaves it stopped for interval 0 (09, R150, R158; 12, R183). A
chip select that was under way when the device reset ended carries no command and leaves the holder: whatever row ends
it, only the mark that it was under way goes (11, R176; that nothing is clocked out, and the mark, are the model's, log
27). -/
def Obligations.HolderShiftedOut : Prop :=
  (∀ (p : Port) (octets : List Byte) (s : State), s.Listens p → carriesNoCommand octets = true →
    exec (.transactionWithoutCommand p octets) s =
      .next (s.setUnit p { s.unit p with
        sdo := ((s.unit p).holder.octets ++ List.replicate octets.length 0xFF).take octets.length })) ∧
  (∀ (s : State) (p : Port) (rest : List Byte),
    s.found p rest = s.setUnit p { s.unit p with
      sdo := ((s.unit p).holder.octets ++ List.replicate (rest.length + 1) 0xFF).take (rest.length + 1)
      presenceTimer :=
        if (s.unit p).state = .active then
          if (s.unit p).presenceInterval = 0 then none else some (s.unit p).presenceInterval
        else (s.unit p).presenceTimer }) ∧
  (∀ (p : Port) (s : State), s.resetting = none → (s.unit p).staleSelect = true →
    let ended := s.setUnit p { s.unit p with staleSelect := false }
    (∀ octets, exec (.transactionWithoutCommand p octets) s = .next ended) ∧
    (∀ code rest, exec (.unknownCommand p code rest) s = .next ended) ∧
    (∀ (c : Command) (rest : List Byte), exec (c.row p rest) s = .next ended))

/-- The ports are separate: whatever command a port gives, every other port keeps its holder, its shifted octets, its
windows, its mask, its presence settings, its detach cause, its defaults and the contents of its queues (its flags, wake
state and pool settings may change); the stamp counter, the loader, the general-wake detector and the queue of commands
stay (02, R34; 09, R150, R152). -/
def Obligations.PortsAreSeparate : Prop :=
  ∀ (c : Command) (p q : Port) (rest : List Byte) (s t : State), q ≠ p → exec (c.row p rest) s = .next t →
    ((t.unit q).holder = (s.unit q).holder ∧ (t.unit q).sdo = (s.unit q).sdo ∧ (t.unit q).mask = (s.unit q).mask ∧
      (t.unit q).presenceInterval = (s.unit q).presenceInterval ∧
      (t.unit q).presenceTimer = (s.unit q).presenceTimer ∧ (t.unit q).detachCause = (s.unit q).detachCause ∧
      (t.unit q).defaults = (s.unit q).defaults ∧ (t.unit q).staleSelect = (s.unit q).staleSelect) ∧
    t.windows.get q = s.windows.get q ∧ t.tx.get q = s.tx.get q ∧ (t.rx.get q).queue = (s.rx.get q).queue ∧
    t.stamp = s.stamp ∧ t.loader = s.loader ∧ t.resetting = s.resetting ∧ t.detector = s.detector ∧
    t.pending = s.pending

/-- While a device reset lasts the hub is inert: every row but the reset rows and the level of the QUIET pin leaves the
state as it is (11, R176; what the registers hold meanwhile is the model's reading, log 11). -/
def Obligations.InertDuringReset : Prop :=
  ∀ (c : Instr) (s : State), s.resetting ≠ none →
    (∀ k, c ≠ .deviceResetStart k) → (∀ x, c ≠ .deviceResetEnd x) → (∀ e, c ≠ .quietEdge e) →
    exec c s = .next s

/-! ## Port units (09) -/

/-- ATTACH: the flags cleared, the detach cause NONE and the one it replaced answered, the port ACTIVE, the presence
timer started when the interval is not 0; nothing else changes. DETACH from ACTIVE, the presence expiry in ACTIVE and the
wake-acknowledge expiry in WAKING are each a teardown with its own cause; an expiry that is not due does not occur (08,
R146; 09, R155, R156, R158; logs 4 and 5). -/
def Obligations.AttachedAndDetached : Prop :=
  (∀ (p : Port) (filler : List Byte) (s : State), s.Ready p → (s.unit p).state = .detached →
    let rest := clockedIn [] filler
    exec (.attach p rest) s =
      .next (((s.found p rest).modUnit p (fun u => { u with
        state := .active
        detachCause := .none
        flags := 0
        presenceTimer := if u.presenceInterval = 0 then none else some u.presenceInterval })).setHolder p
          ⟨.ok, [(s.unit p).detachCause.code]⟩)) ∧
  ((∀ (p : Port) (filler : List Byte) (s : State), s.Active p →
    exec (.detach p (clockedIn [] filler)) s =
      .next ((teardown p .requested (s.found p (clockedIn [] filler))).setHolder p ⟨.ok, []⟩)) ∧
  (∀ (p : Port) (s : State), s.resetting = none → (s.unit p).state = .active → (s.unit p).presenceTimer = some 0 →
    exec (.presenceExpiry p) s = .next (teardown p .presence s)) ∧
  (∀ (p : Port) (s : State), s.resetting = none → (s.unit p).state = .waking → (s.unit p).ackTimer = some 0 →
    exec (.wakeAcknowledgeExpiry p) s = .next (teardown p .wakeUnanswered s)) ∧
  (∀ (p : Port) (s : State), s.resetting = none →
    ((s.unit p).state ≠ .active ∨ (s.unit p).presenceTimer ≠ some 0 → exec (.presenceExpiry p) s = .next s) ∧
    ((s.unit p).state ≠ .waking ∨ (s.unit p).ackTimer ≠ some 0 → exec (.wakeAcknowledgeExpiry p) s = .next s)))

/-- What a teardown releases: the lease, when the port holds it, with LEASE_FREE in every other ACTIVE port, both queues,
the route entries, the slots (to their stand-ins with SLOT_GAINED, or removed), the stand-ins with STANDIN_GONE, the
timers, flags and wake state; the source of a telegram in flight that came from the port's queue or from a removed slot
is cut (09, R160; 01, R17; 07, R128, R129). -/
def Obligations.TeardownReleases : Prop :=
  ∀ (p : Port) (cause : DetachCause) (s : State), SlotsSafe s → OwnershipSafe s → (s.unit p).state ≠ .detached →
    let t := teardown p cause s
    ((t.unit p).state = .detached ∧ (t.unit p).detachCause = cause ∧ (t.unit p).flags = 0 ∧
      (t.unit p).presenceTimer = none ∧ (t.unit p).wakeTimer = none ∧ (t.unit p).ackTimer = none ∧
      (t.unit p).wakeSet = WakeSet.empty ∧ (t.unit p).wakeRecord = none) ∧
    t.line.lease ≠ some p ∧ (s.line.lease ≠ some p → t.line.lease = s.line.lease) ∧
    (s.line.lease = some p → t.line.lease = none ∧
      ∀ q, q ≠ p → (s.unit q).state = .active → (t.unit q).has .leaseFree = true) ∧
    (t.rx.get p).queue = [] ∧ (t.tx.get p).entries = [] ∧
    (∀ n e, s.route n = some e → t.route n = if e.owner = p then none else some e) ∧
    (∀ n sl, s.slot n = some sl → sl.owner ≠ p → (∀ si, sl.standIn = some si → si.port ≠ p) → t.slot n = some sl) ∧
    (∀ n sl si, s.slot n = some sl → sl.owner ≠ p → sl.standIn = some si → si.port = p →
      t.slot n = some { sl with standIn := none } ∧ (t.unit sl.owner).has .standinGone = true) ∧
    (∀ n sl, s.slot n = some sl → sl.owner = p → sl.standIn = none → t.slot n = none) ∧
    (∀ n sl si, s.slot n = some sl → sl.owner = p → sl.standIn = some si →
      t.slot n = some { sl with
        owner := si.port, active := si.payload, pendingPayload := none, standIn := none, staleRun := 0 } ∧
      (t.unit si.port).has .slotGained = true) ∧
    (∀ r, s.line.inFlight = some r →
      (r.source = .queueHead p ∨
          (∃ n sl, r.source = .dueEntry n ∧ s.slot n = some sl ∧ sl.owner = p ∧ sl.standIn = none) →
        t.line.inFlight = some { r with source := .none }) ∧
      (r.source ≠ .queueHead p →
          (∀ n sl, r.source = .dueEntry n → s.slot n = some sl → sl.owner = p → sl.standIn ≠ none) →
        t.line.inFlight = some r))

/-- What a teardown spares: the port's windows, mask, presence interval, pool settings, loaded defaults and holder; every
other port but the flags it may gain, and its lease; the line's state, settings, counter and timers; the quiet input, the
general-wake detector, the loader and the stamp counter (09, R160, R161; 01, R25). -/
def Obligations.TeardownSpares : Prop :=
  ∀ (p : Port) (cause : DetachCause) (s : State),
    let t := teardown p cause s
    ((t.unit p).mask = (s.unit p).mask ∧ (t.unit p).presenceInterval = (s.unit p).presenceInterval ∧
      (t.unit p).holder = (s.unit p).holder ∧ (t.unit p).sdo = (s.unit p).sdo ∧
      (t.unit p).defaults = (s.unit p).defaults) ∧
    (t.rx.get p).reserve = (s.rx.get p).reserve ∧ (t.rx.get p).limit = (s.rx.get p).limit ∧
    (t.rx.get p).policy = (s.rx.get p).policy ∧
    (∀ q, q ≠ p → t.unit q = { s.unit q with flags := (t.unit q).flags } ∧
      (s.unit q).flags &&& (t.unit q).flags = (s.unit q).flags ∧
      t.rx.get q = s.rx.get q ∧ t.tx.get q = s.tx.get q) ∧
    t.windows = s.windows ∧ t.line = { s.line with lease := t.line.lease, inFlight := t.line.inFlight } ∧
    (s.line.lease ≠ some p → t.line.lease = s.line.lease) ∧
    t.quiet = s.quiet ∧ t.detector = s.detector ∧ t.loader = s.loader ∧ t.stamp = s.stamp ∧
    t.resetting = s.resetting ∧ t.pending = s.pending

/-- PORT_RESET, in every port state: the teardown with cause RESET, or for a DETACHED port the cause alone; then the
windows, limit, policy, presence interval and mask from the loaded defaults, and the reserve too, or the largest figure
below it that leaves no negative headroom (09, R157; 02, R34; 04, R71). -/
def Obligations.PortResetTaken : Prop :=
  ∀ (p : Port) (filler : List Byte) (s : State), s.Ready p →
    let rest := clockedIn [] filler
    let d := (s.unit p).defaults
    let t :=
      if (s.unit p).state = .detached then (s.found p rest).modUnit p (fun u => { u with detachCause := .reset })
      else teardown p .reset (s.found p rest)
    let others := sumPorts (fun q => if q = p then 0 else max (t.rx.get q).reserve (t.rx.get q).queue.length)
    exec (.portReset p rest) s =
      .next (({ t with
        windows := t.windows.set p d.windows
        rx := t.rx.set p ⟨(t.rx.get p).queue, if others + d.reserve ≤ 128 then d.reserve else 128 - others, d.limit,
          d.policy⟩ }.modUnit p
          (fun u => { u with presenceInterval := d.presenceInterval, mask := d.mask })).setHolder p ⟨.ok, []⟩)

/-- SET_PRESENCE writes an interval of 0 or a multiple of 10 up to 2550 and restarts, or stops, the timer; any other
interval is refused OUT_OF_RANGE. TAKE_EVENTS answers all sixteen flags and clears them; SET_EVENT_MASK writes any mask
and leaves the flags (09, R159, R164, R165). -/
def Obligations.PresenceAndEvents : Prop :=
  (∀ (p : Port) (n : Word16) (filler : List Byte) (s : State), s.Active p →
    let rest := clockedIn (octets2 n) filler
    (n.toNat = 0 ∨ (10 ≤ n.toNat ∧ n.toNat ≤ 2550 ∧ n.toNat % 10 = 0) →
      exec (.setPresence p rest) s =
        .next (((s.found p rest).modUnit p (fun u => { u with
          presenceInterval := n.toNat
          presenceTimer := if n.toNat = 0 then none else some n.toNat })).setHolder p ⟨.ok, []⟩)) ∧
    (¬(n.toNat = 0 ∨ (10 ≤ n.toNat ∧ n.toNat ≤ 2550 ∧ n.toNat % 10 = 0)) →
      exec (.setPresence p rest) s = .next (s.answered p rest ⟨.outOfRange, []⟩))) ∧
  (∀ (p : Port) (filler : List Byte) (s : State), s.Active p →
    (exec (.takeEvents p (clockedIn [] filler)) s =
      .next (((s.found p (clockedIn [] filler)).modUnit p (fun u => { u with flags := 0 })).setHolder p
        ⟨.ok, [(s.unit p).flags.extractLsb' 8 8, (s.unit p).flags.extractLsb' 0 8]⟩)) ∧
    (∀ m : Word16, exec (.setEventMask p (clockedIn (octets2 m) filler)) s =
      .next (((s.found p (clockedIn (octets2 m) filler)).modUnit p (fun u => { u with mask := m })).setHolder p
        ⟨.ok, []⟩)))

/-- A flag raised in a port that is not DETACHED is set and disturbs no other; a DETACHED port records none, and nothing
but port units is changed (09, R162). Outside a device reset ATTn follows the unmasked flags of an ACTIVE port (09,
R163), WAKEn the state WAKING (08, R145), LEN the presence of a transmission in flight, whose octets LTX carries (01, R4,
R12, R14), and the I2C master pair drives the loader's transfer (11, R177); during a device reset all are released (11,
R176). That the outputs are functions of the state is the model's reading, log 24; that a mask position of 1 enables its
flag is its choice, log 30. -/
def Obligations.FlagsAndOutputs : Prop :=
  (∀ (u : PortUnit) (f g : EventFlag),
    (u.state ≠ .detached → (u.raise f).has f = true) ∧ (g ≠ f → (u.raise f).has g = u.has g) ∧
      (u.state = .detached → u.raise f = u) ∧ u.raise f = { u with flags := (u.raise f).flags }) ∧
  (∀ (s : State) (p q : Port) (f : EventFlag),
    (s.raise p f).unit q = (if q = p then (s.unit q).raise f else s.unit q) ∧
    (s.raiseAll f).unit q = (s.unit q).raise f ∧
    (s.raiseActive f).unit q = (if (s.unit q).state = .active then (s.unit q).raise f else s.unit q) ∧
    (s.raiseActiveExcept p f).unit q =
      (if q ≠ p ∧ (s.unit q).state = .active then (s.unit q).raise f else s.unit q) ∧
    s.raise p f = { s with ports := (s.raise p f).ports } ∧ s.raiseAll f = { s with ports := (s.raiseAll f).ports } ∧
    s.raiseActive f = { s with ports := (s.raiseActive f).ports } ∧
    s.raiseActiveExcept p f = { s with ports := (s.raiseActiveExcept p f).ports }) ∧
  (∀ (s : State) (p : Port), s.attn p = true ↔
    s.resetting = none ∧ (s.unit p).state = .active ∧
      ∃ f : EventFlag, (s.unit p).has f = true ∧ (s.unit p).mask.getLsbD f.bit = true) ∧
  (∀ (s : State) (p : Port), s.waken p = true ↔ s.resetting = none ∧ (s.unit p).state = .waking) ∧
  (∀ s : State, (s.len = true ↔ s.resetting = none ∧ s.line.inFlight ≠ none) ∧
    (∀ r, s.resetting = none → s.line.inFlight = some r → s.ltxOctets = r.telegram.octets) ∧
    (s.resetting ≠ none ∨ s.line.inFlight = none → s.ltxOctets = [])) ∧
  (∀ s : State, (s.resetting = none → s.imageBus = s.loader.transfer) ∧ (s.resetting ≠ none → s.imageBus = []))

/-- READ_STATUS, in every port state, and READ_ID answer their records and change nothing else (09, R166; 11, R181; 12,
Table 12-2). -/
def Obligations.StatusReads : Prop :=
  ∀ (p : Port) (filler : List Byte) (s : State), s.Ready p →
    let rest := clockedIn [] filler
    let u := s.unit p
    exec (.readStatus p rest) s =
      .next (s.answered p rest ⟨.ok,
        [u.state.code, u.detachCause.code, u.flags.extractLsb' 8 8, u.flags.extractLsb' 0 8, u.mask.extractLsb' 8 8,
          u.mask.extractLsb' 0 8, oct (s.rx.get p).queue.length, oct (s.tx.get p).entries.length] ++
        count2 u.presenceInterval ++ [u.wakeSet.octet] ++ wakeRecordOctets u.wakeRecord ++
        [portOptCode s.line.lease, s.line.state.code, flagOctet s.quiet.latch, flagOctet s.loader.loadFault]⟩) ∧
    exec (.readId p rest) s =
      .next (s.answered p rest ⟨.ok, [0x6C, 0x10, 0x18, 0x01, flagOctet s.loader.loadFault]⟩)

/-- LEASE_TAKE grants a free lease, answers OK to its holder, and refuses LEASE_HELD with the holder's letter;
LEASE_RELEASE frees the holder's lease with LEASE_FREE in every other ACTIVE port, and is refused WRONG_STATE to any
other (09, R167, R168). -/
def Obligations.LeaseTakenAndReleased : Prop :=
  ∀ (p : Port) (filler : List Byte) (s : State), s.Active p →
    let rest := clockedIn [] filler
    (s.line.lease = none →
      exec (.leaseTake p rest) s =
        .next (({ s.found p rest with line := { s.line with lease := some p } }).setHolder p ⟨.ok, []⟩)) ∧
    (s.line.lease = some p → exec (.leaseTake p rest) s = .next (s.answered p rest ⟨.ok, []⟩)) ∧
    (∀ q, q ≠ p → s.line.lease = some q →
      exec (.leaseTake p rest) s = .next (s.answered p rest ⟨.leaseHeld, [portCode q]⟩)) ∧
    (s.line.lease = some p →
      exec (.leaseRelease p rest) s =
        .next ((({ s.found p rest with line := { s.line with lease := none } }).raiseActiveExcept p
          .leaseFree).setHolder p ⟨.ok, []⟩)) ∧
    (s.line.lease ≠ some p → exec (.leaseRelease p rest) s = .next (s.answered p rest ⟨.wrongState, []⟩))

/-! ## Label windows (02) -/

/-- SET_WINDOW writes one window whole, from an ACTIVE or a DETACHED port, when its base and map lie in its mask, and is
refused BAD_PATTERN otherwise, after OUT_OF_RANGE for a number, a label or attributes outside their ranges; READ_WINDOW
answers a window, and refuses a number above 7 OUT_OF_RANGE (02, R30, R31; 12, R184). -/
def Obligations.WindowCommands : Prop :=
  ∀ (p : Port) (n : Byte) (w : Window) (filler : List Byte) (s : State), s.Ready p →
    (s.unit p).state = .active ∨ (s.unit p).state = .detached →
    let ps := n :: (label2 w.base ++ label2 w.mask ++ label2 w.map ++
      [setOctet w.enabled w.allowData w.allowQuery w.allowSlot])
    let rest := clockedIn ps filler
    let read := clockedIn [n] filler
    (n.toNat ≤ 7 → w.inMask = true →
      exec (.setWindow p rest) s =
        .next (({ s.found p rest with
          windows := s.windows.set p ((s.windows.get p).set n.toNat w) }).setHolder p ⟨.ok, []⟩)) ∧
    (n.toNat ≤ 7 → w.inMask = false → exec (.setWindow p rest) s = .next (s.answered p rest ⟨.badPattern, []⟩)) ∧
    (∀ (base mask map : Word16) (attributes : Byte),
      7 < n.toNat ∨ 16383 < base.toNat ∨ 16383 < mask.toNat ∨ 16383 < map.toNat ∨ 15 < attributes.toNat →
      let raw := clockedIn (n :: (octets2 base ++ octets2 mask ++ octets2 map ++ [attributes])) filler
      exec (.setWindow p raw) s = .next (s.answered p raw ⟨.outOfRange, []⟩)) ∧
    (7 < n.toNat → exec (.readWindow p read) s = .next (s.answered p read ⟨.outOfRange, []⟩)) ∧
    (n.toNat ≤ 7 → (s.windows.get p)[n.toNat]? = some w →
      exec (.readWindow p read) s = .next (s.answered p read ⟨.ok, ps⟩))

/-- The translation of a local label: the first enabled window that hits decides alone; it keeps the bits outside its
mask and takes the map's bits inside it; NO_WINDOW, NOT_PERMITTED and LABEL_RESERVED are tested in that order;
ALLOW_DATA, ALLOW_QUERY and ALLOW_SLOT are the permissions for DATA, QUERY and slots (02, R27, R28, Table 2-2). -/
def Obligations.TranslationDecides : Prop :=
  ∀ (ws : List Window) (perm : Permission) (l : Label),
    ((∀ w ∈ ws, ¬(w.enabled = true ∧ l &&& w.mask = w.base)) → translate ws perm l = .fails .noWindow) ∧
    (∀ (before after : List Window) (w : Window) (line : Label), ws = before ++ w :: after →
      (∀ x ∈ before, ¬(x.enabled = true ∧ l &&& x.mask = x.base)) → w.enabled = true → l &&& w.mask = w.base →
      w.inMask = true →
      (∀ k, k < 14 → line.getLsbD k = if w.mask.getLsbD k = true then w.map.getLsbD k else l.getLsbD k) →
      (w.allows perm = false → translate ws perm l = .fails .notPermitted) ∧
      (w.allows perm = true → line = 0 → translate ws perm l = .fails .labelReserved) ∧
      (w.allows perm = true → line ≠ 0 → translate ws perm l = .label line)) ∧
    (∀ w : Window, w.allows .data = w.allowData ∧ w.allows .query = w.allowQuery ∧ w.allows .slot = w.allowSlot)

/-! ## The route table (03) -/

/-- ROUTE_ADD: OUT_OF_RANGE for a value outside its field's range, BAD_PATTERN for a label base or local base outside the
mask or an empty kind set, PORT_LIMIT, TABLE_FULL; taken, it makes the lowest-numbered free entry live with the command's
contents, the issuing port as owner, the data value inside its mask, HOLD set with WAKE, and the fields the entry does
not use not kept (03, R49, R50; 12, Table 12-1, R184). -/
def Obligations.RouteAdded : Prop :=
  (∀ (p : Port) (ps filler : List Byte) (s : State), s.Active p → ps.length = 28 →
    let at' (k : Nat) : Nat := (octetAt ps k).toNat
    let rest := clockedIn ps filler
    15 < at' 0 ∨ 16383 < (wordAt ps 1).toNat ∨ 16383 < (wordAt ps 3).toNat ∨ 7 < at' 5 ∨ (16 < at' 6 ∧ at' 6 ≠ 255) ∨
      2 < at' 7 ∨ 1 < at' 8 ∨ 7 < at' 9 ∨ ((octetAt ps 9).getLsbD 2 = true ∧ 16383 < (wordAt ps 10).toNat) →
    exec (.routeAdd p rest) s = .next (s.answered p rest ⟨.outOfRange, []⟩)) ∧
  (∀ (p : Port) (rank : Nat) (base mask : Label) (kinds : KindSet) (lengths : LengthTest) (code : Byte)
    (test : DataTest) (action : Action) (hold wake : Bool) (localBase : Option Label) (lb : Word16)
    (dataMask dataValue filler : List Byte) (s : State), s.Active p →
    rank ≤ 15 → lengths = .any ∨ (∃ k, k ≤ 16 ∧ lengths = .exact k) →
    dataMask.length = 8 → dataValue.length = 8 →
    (code = 0 ∧ test = .none) ∨ (code = 1 ∧ test = .anySet dataMask) ∨
      (code = 2 ∧ test = .equal dataMask (List.zipWith (· &&& ·) dataValue dataMask)) →
    localBase = none ∨ (∃ b : Label, localBase = some b ∧ lb = b.setWidth 16) →
    let rest := clockedIn (oct rank :: (label2 base ++ label2 mask ++
      [kinds.octet, lengths.code, code, action.code, setOctet hold wake localBase.isSome false] ++ octets2 lb ++
      dataMask ++ dataValue)) filler
    let refused (c : ResultCode) := exec (.routeAdd p rest) s = .next (s.answered p rest ⟨c, []⟩)
    let patternOk := base &&& ~~~mask = 0 ∧ (∀ b, localBase = some b → b &&& ~~~mask = 0) ∧
      (kinds.data = true ∨ kinds.query = true ∨ kinds.wake = true)
    (¬patternOk → refused .badPattern) ∧
    (patternOk → 32 ≤ s.routeCount p → refused .portLimit) ∧
    (patternOk → s.routeCount p < 32 → (∀ x ∈ s.routes, x ≠ none) → refused .tableFull) ∧
    (∀ n, patternOk → s.routeCount p < 32 → s.routes[n]? = some none → (∀ m, m < n → (s.route m).isSome = true) →
      exec (.routeAdd p rest) s =
        .next (({ s.found p rest with
          routes := s.routes.set n (some ⟨p, rank, base, mask, kinds, lengths, test, action, hold || wake, wake,
            localBase⟩) }).setHolder p ⟨.ok, [oct n]⟩)))

/-- ROUTE_REMOVE frees an entry of the issuing port, and is refused BAD_INDEX for a free entry and NOT_OWNER for another
port's; ROUTE_READ answers any live entry to any ACTIVE port; both refuse a number above 63 OUT_OF_RANGE. ROUTE_LIST
answers the numbers of the issuing port's live entries, ascending, behind their count (03, R51, R52, R53; 12, Table
12-2). -/
def Obligations.RouteEntriesNamed : Prop :=
  (∀ (p : Port) (n : Byte) (filler : List Byte) (s : State), s.Active p →
    let rest := clockedIn [n] filler
    (63 < n.toNat → exec (.routeRemove p rest) s = .next (s.answered p rest ⟨.outOfRange, []⟩) ∧
      exec (.routeRead p rest) s = .next (s.answered p rest ⟨.outOfRange, []⟩)) ∧
    (n.toNat ≤ 63 → s.route n.toNat = none →
      exec (.routeRemove p rest) s = .next (s.answered p rest ⟨.badIndex, []⟩) ∧
      exec (.routeRead p rest) s = .next (s.answered p rest ⟨.badIndex, []⟩)) ∧
    (∀ e, n.toNat ≤ 63 → s.route n.toNat = some e →
      (e.owner ≠ p → exec (.routeRemove p rest) s = .next (s.answered p rest ⟨.notOwner, []⟩)) ∧
      (e.owner = p → exec (.routeRemove p rest) s =
        .next (({ s.found p rest with routes := s.routes.set n.toNat none }).setHolder p ⟨.ok, []⟩)) ∧
      exec (.routeRead p rest) s =
        .next (s.answered p rest ⟨.ok, [n, portCode e.owner, oct e.rank] ++ label2 e.labelBase ++ label2 e.labelMask ++
          [e.kinds.octet, e.lengthTest.code, e.dataTest.code, e.action.code,
            setOctet e.hold e.wake e.localBase.isSome false] ++ label2 (e.localBase.getD 0) ++
          (match e.dataTest with
            | .none => List.replicate 8 0
            | .anySet m => m
            | .equal m _ => m) ++
          (match e.dataTest with
            | .none => List.replicate 8 0
            | .anySet _ => List.replicate 8 0
            | .equal _ v => v)⟩))) ∧
  (∀ (p : Port) (filler : List Byte) (s : State), s.Active p → s.routes.length = 64 →
    let rest := clockedIn [] filler
    let mine := (List.range 64).filter (fun n =>
      match s.route n with
      | some e => e.owner == p
      | none => false)
    exec (.routeList p rest) s = .next (s.answered p rest ⟨.ok, oct mine.length :: mine.map oct⟩))

/-- An entry matches when its label, kind, length and data tests hold; octets beyond the payload count as 0, and no octet
from 8 on is tested. The deciding entry of a port: among the live entries it owns that match, the lowest rank, and among
equal ranks the lowest number; none when no entry of the port matches (03, R38 to R40, R42). -/
def Obligations.EntriesMatchAndDecide : Prop :=
  (∀ (e : RouteEntry) (t : Telegram),
    (e.matches t = true ↔
      t.label &&& e.labelMask = e.labelBase ∧
      (match t.kind with | .data => e.kinds.data | .query => e.kinds.query | .wake => e.kinds.wake) = true ∧
      (e.lengthTest = .any ∨ e.lengthTest = .exact t.payload.length) ∧ e.dataTest.holds t.payload = true) ∧
    DataTest.none.holds t.payload = true ∧
    (∀ mask : List Byte, mask.length = 8 →
      ((DataTest.anySet mask).holds t.payload = true ↔
        ∃ k, k < 8 ∧ t.payload.getD k 0 &&& mask.getD k 0 ≠ 0)) ∧
    (∀ mask value : List Byte, mask.length = 8 → value.length = 8 →
      ((DataTest.equal mask value).holds t.payload = true ↔
        ∀ k, k < 8 → t.payload.getD k 0 &&& mask.getD k 0 = value.getD k 0))) ∧
  (∀ (routes : List (Option RouteEntry)) (p : Port) (t : Telegram),
    (∀ n e, decidingEntry routes p t = some (n, e) ↔
      routes[n]? = some (some e) ∧ e.owner = p ∧ e.matches t = true ∧
        ∀ (m : Nat) (f : RouteEntry), routes[m]? = some (some f) → f.owner = p → f.matches t = true →
          e.rank < f.rank ∨ (e.rank = f.rank ∧ n ≤ m)) ∧
    (decidingEntry routes p t = none ↔
      ∀ (m : Nat) (f : RouteEntry), routes[m]? = some (some f) → f.owner = p → f.matches t = false))

/-- What an offer yields for a port, by its deciding entry and its state: the table of DELIVER decisions, DISCARD, the
excluded port, no entry; with the contents of the copy, its local label and its marks, and the wake cause ROUTE (03, R42
to R47). -/
def Obligations.DeliveryTable : Prop :=
  ∀ (o : Offer) (s : State) (p : Port),
    (o.excluded = some p → o.decide s p = ⟨none, none⟩) ∧
    (decidingEntry s.routes p o.telegram = none → o.decide s p = ⟨none, none⟩) ∧
    (∀ n e, o.excluded ≠ some p → decidingEntry s.routes p o.telegram = some (n, e) →
      let copy (held : Bool) : RxRecord :=
        { kind := o.telegram.kind, lineLabel := o.telegram.label
          localLabel :=
            match e.localBase with
            | some b => o.telegram.label &&& ~~~e.labelMask ||| b
            | none => o.telegram.label
          payload := o.telegram.payload, routeIndex := n, stamp := o.stamp, wakeMark := e.wake, heldMark := held
          source := o.excluded }
      let asleep := (s.unit p).state = .dozing ∨ (s.unit p).state = .waking
      (e.action = .discard → o.decide s p = ⟨none, none⟩) ∧
      ((s.unit p).state = .detached → o.decide s p = ⟨none, none⟩) ∧
      (e.action = .deliver → (s.unit p).state = .active → o.decide s p = ⟨some (copy false), none⟩) ∧
      (e.action = .deliver → asleep → e.hold = false → e.wake = false → o.decide s p = ⟨none, none⟩) ∧
      (e.action = .deliver → asleep → e.hold = true → e.wake = false → o.decide s p = ⟨some (copy true), none⟩) ∧
      (e.action = .deliver → asleep → e.wake = true → o.decide s p = ⟨some (copy true), some n⟩))

/-! ## Receive queues and the pool (04) -/

/-- FETCH takes the head record and answers it with the occupancy that remains, or is refused QUEUE_EMPTY; FLUSH_RX
empties the queue and answers the number removed; both leave the settings, the flags and every other queue (04, R66, R67;
12, Table 12-4). -/
def Obligations.FetchAndFlush : Prop :=
  ∀ (p : Port) (filler : List Byte) (s : State), s.Active p →
    let rest := clockedIn [] filler
    let q := s.rx.get p
    (q.queue = [] → exec (.fetch p rest) s = .next (s.answered p rest ⟨.queueEmpty, []⟩)) ∧
    (∀ r more, q.queue = r :: more →
      exec (.fetch p rest) s =
        .next (((s.found p rest).setRx p { q with queue := more }).setHolder p
          ⟨.ok, [oct more.length, r.kind.code, setOctet r.wakeMark r.heldMark r.source.isSome false,
              portOptCode r.source, oct r.routeIndex] ++ label2 r.lineLabel ++ label2 r.localLabel ++
            octets2 r.stamp ++ [oct r.payload.length] ++ r.payload⟩)) ∧
    exec (.flushRx p rest) s =
      .next (((s.found p rest).setRx p { q with queue := [] }).setHolder p ⟨.ok, [oct q.queue.length]⟩)

/-- SET_RESERVE, from the lease holder for any port: NO_LEASE, then OUT_OF_RANGE for any of its four values, then
RESERVE_UNAVAILABLE when the headroom would fall below 0; taken, it writes the three settings and touches no record.
READ_POOL answers the free count, the outstanding reserve and the four ports' occupancy, reserve, limit and policy, and
changes nothing (04, R68 to R70; 12, Table 12-2). -/
def Obligations.PoolSettings : Prop :=
  (∀ (p q : Port) (reserve limit : Byte) (policy : Policy) (filler : List Byte) (s : State), s.Active p →
    sumPorts s.occupancy ≤ 128 →
    let rest := clockedIn [portCode q, reserve, limit, policy.code] filler
    let inRange := reserve.toNat ≤ 32 ∧ 1 ≤ limit.toNat ∧ limit.toNat ≤ 128 ∧ reserve.toNat ≤ limit.toNat
    let claimed := sumPorts (fun r =>
      max (if r = q then reserve.toNat else (s.rx.get r).reserve) (s.rx.get r).queue.length)
    (∀ letter code : Byte,
      let raw := clockedIn [letter, reserve, limit, code] filler
      (s.line.lease ≠ some p → exec (.setReserve p raw) s = .next (s.answered p raw ⟨.noLease, []⟩)) ∧
      (s.line.lease = some p → ¬inRange ∨ 3 < letter.toNat ∨ 1 < code.toNat →
        exec (.setReserve p raw) s = .next (s.answered p raw ⟨.outOfRange, []⟩))) ∧
    (s.line.lease = some p → inRange → 128 < claimed →
      exec (.setReserve p rest) s = .next (s.answered p rest ⟨.reserveUnavailable, []⟩)) ∧
    (s.line.lease = some p → inRange → claimed ≤ 128 →
      exec (.setReserve p rest) s =
        .next (((s.found p rest).setRx q
          ⟨(s.rx.get q).queue, reserve.toNat, limit.toNat, policy⟩).setHolder p ⟨.ok, []⟩))) ∧
  (∀ (p : Port) (filler : List Byte) (s : State), s.Active p →
    let rest := clockedIn [] filler
    let part (q : Port) : List Byte :=
      [oct (s.rx.get q).queue.length, oct (s.rx.get q).reserve, oct (s.rx.get q).limit, (s.rx.get q).policy.code]
    exec (.readPool p rest) s =
      .next (s.answered p rest ⟨.ok,
        [oct (128 - sumPorts (fun q => (s.rx.get q).queue.length)),
          oct (sumPorts (fun q => (s.rx.get q).reserve - (s.rx.get q).queue.length))] ++
        part .a ++ part .b ++ part .c ++ part .d⟩))

/-- The admission decision for one copy: a new buffer at the tail, with RX_READY into an empty queue; or, under
DROP_OLDEST with an occupancy above 0 and not above the limit, the place of the first record without the WAKE mark, with
RX_DROP; or dropped, with RX_DROP. Nothing else changes, and a WAKE-marked record is still in its queue after any
admission (04, R61 to R63, R65). -/
def Obligations.AdmissionDecides : Prop :=
  (∀ (p : Port) (r : RxRecord) (s : State),
    let q := s.rx.get p
    let o := q.queue.length
    let newBuffer := o < q.limit ∧ (o < q.reserve ∨ 1 ≤ s.headroom)
    (newBuffer → o = 0 → admitCopy p r s = (s.setRx p { q with queue := [r] }).raise p .rxReady) ∧
    (newBuffer → o ≠ 0 → admitCopy p r s = s.setRx p { q with queue := q.queue ++ [r] }) ∧
    (¬newBuffer → q.policy = .dropOldest → o ≤ q.limit → ∀ older evicted newer,
      q.queue = older ++ evicted :: newer → (∀ y ∈ older, y.wakeMark = true) → evicted.wakeMark = false →
      admitCopy p r s = (s.setRx p { q with queue := older ++ newer ++ [r] }).raise p .rxDrop) ∧
    (¬newBuffer → (q.policy = .dropNewest ∨ o = 0 ∨ q.limit < o ∨ ∀ y ∈ q.queue, y.wakeMark = true) →
      admitCopy p r s = s.raise p .rxDrop)) ∧
  (∀ (p q : Port) (r x : RxRecord) (s : State), x ∈ (s.rx.get q).queue → x.wakeMark = true →
    x ∈ ((admitCopy p r s).rx.get q).queue)

/-! ## Transmit queues and the arbiter (05) -/

/-- SEND: refused OUT_OF_RANGE for a kind other than DATA and QUERY, a label above 16383 or a length above 16; then with
the failure of its translation for the permission of its kind; then QUEUE_FULL. Taken, it appends an entry with 0
attempts and the present stamp, which begins a candidacy when it is head, and answers the line label and the occupancy
(05, R76, R77, R81; 12, R183, R184). -/
def Obligations.SendTaken : Prop :=
  (∀ (p : Port) (query : Bool) (l : Label) (payload filler : List Byte) (s : State), s.Active p →
    payload.length ≤ 16 →
    let kind := if query then Kind.query else Kind.data
    let rest := clockedIn (kind.code :: (label2 l ++ [oct payload.length] ++ payload)) filler
    let tr := translate (s.windows.get p) (if query then .query else .data) l
    let q := s.tx.get p
    (∀ c, tr = .fails c → exec (.send p rest) s = .next (s.answered p rest ⟨c, []⟩)) ∧
    (∀ line, tr = .label line → 8 ≤ q.entries.length →
      exec (.send p rest) s = .next (s.answered p rest ⟨.queueFull, []⟩)) ∧
    (∀ line, tr = .label line → q.entries = [] →
      exec (.send p rest) s =
        .next (({ s.found p rest with
          tx := s.tx.set p ⟨[⟨kind, line, l, payload, 0, s.stamp⟩], some s.nextCandidacy⟩
          nextCandidacy := s.nextCandidacy + 1 }).setHolder p ⟨.ok, label2 line ++ [1]⟩)) ∧
    (∀ line, tr = .label line → q.entries ≠ [] → q.entries.length < 8 →
      exec (.send p rest) s =
        .next (((s.found p rest).setTx p
          ⟨q.entries ++ [⟨kind, line, l, payload, 0, s.stamp⟩], q.headSince⟩).setHolder p
            ⟨.ok, label2 line ++ [oct (q.entries.length + 1)]⟩))) ∧
  (∀ (p : Port) (kind : Byte) (w : Word16) (payload filler : List Byte) (s : State), s.Active p →
    payload.length ≤ 251 → 1 < kind.toNat ∨ 16383 < w.toNat ∨ 16 < payload.length →
    let rest := clockedIn (kind :: (octets2 w ++ [oct payload.length] ++ payload)) filler
    exec (.send p rest) s = .next (s.answered p rest ⟨.outOfRange, []⟩))

/-- SEND_WAKE appends two WAKE entries with label 0 when the queue holds 6 or fewer, and neither otherwise. TX_FLUSH
empties the queue, or keeps a head that is in flight and removes the entries behind it; TX_STATUS answers the occupancy
and the head, and changes nothing (05, R78 to R80; 12, Table 12-2). -/
def Obligations.TransmitQueueCommands : Prop :=
  (∀ (p : Port) (filler : List Byte) (s : State), s.Active p →
    let rest := clockedIn [] filler
    let q := s.tx.get p
    let e : TxEntry := ⟨.wake, 0, 0, [], 0, s.stamp⟩
    (7 ≤ q.entries.length → exec (.sendWake p rest) s = .next (s.answered p rest ⟨.queueFull, []⟩)) ∧
    (q.entries = [] →
      exec (.sendWake p rest) s =
        .next (({ s.found p rest with
          tx := s.tx.set p ⟨[e, e], some s.nextCandidacy⟩
          nextCandidacy := s.nextCandidacy + 1 }).setHolder p ⟨.ok, [2]⟩)) ∧
    (q.entries ≠ [] → q.entries.length ≤ 6 →
      exec (.sendWake p rest) s =
        .next (((s.found p rest).setTx p ⟨q.entries ++ [e, e], q.headSince⟩).setHolder p
          ⟨.ok, [oct (q.entries.length + 2)]⟩))) ∧
  (∀ (p : Port) (filler : List Byte) (s : State), s.Active p →
    let rest := clockedIn [] filler
    let q := s.tx.get p
    let inFlight := ∃ r, s.line.inFlight = some r ∧ r.source = .queueHead p
    (¬inFlight → exec (.txFlush p rest) s =
      .next (((s.found p rest).setTx p ⟨[], none⟩).setHolder p ⟨.ok, [oct q.entries.length]⟩)) ∧
    (∀ e more, inFlight → q.entries = e :: more → exec (.txFlush p rest) s =
      .next (((s.found p rest).setTx p ⟨[e], q.headSince⟩).setHolder p ⟨.ok, [oct more.length]⟩)) ∧
    (q.entries = [] → exec (.txStatus p rest) s = .next (s.answered p rest ⟨.ok, [0, 0]⟩)) ∧
    (∀ e more, q.entries = e :: more →
      (inFlight → exec (.txStatus p rest) s =
        .next (s.answered p rest ⟨.ok, [oct (more.length + 1), 1, e.kind.code] ++ label2 e.lineLabel ++
          label2 e.localLabel ++ [oct e.attempts] ++ octets2 e.stamp⟩)) ∧
      (¬inFlight → exec (.txStatus p rest) s =
        .next (s.answered p rest ⟨.ok, [oct (more.length + 1), 0, e.kind.code] ++ label2 e.lineLabel ++
          label2 e.localLabel ++ [oct e.attempts] ++ octets2 e.stamp⟩))))

/-- The candidates are the head of each queue that is not in flight, and each due entry that is not, of kind DATA under
its slot's label with the slot's owner as origin. The arbiter chooses a candidate with the lowest line label, and among
equal labels one whose candidacy came first; it chooses none only when there is none (05, R81 to R83; 06, R109). -/
def Obligations.ArbiterChooses : Prop :=
  (∀ (s : State) (c : Candidate), s.slots.length = 24 →
    (c ∈ s.candidates ↔
      (∃ p e more, (s.tx.get p).entries = e :: more ∧ s.source ≠ .queueHead p ∧
        c = ⟨⟨e.kind, e.lineLabel, e.payload⟩, .queueHead p, p, (s.tx.get p).headSince.getD 0⟩) ∨
      (∃ n sl d, s.slot n = some sl ∧ sl.due = some d ∧ s.source ≠ .dueEntry n ∧
        c = ⟨⟨.data, sl.lineLabel, d.payload⟩, .dueEntry n, sl.owner, d.candidacy⟩))) ∧
  (∀ cs : List Candidate,
    (∀ c, choose cs = some c → c ∈ cs ∧ ∀ d ∈ cs,
      c.telegram.label.toNat < d.telegram.label.toNat ∨
        (c.telegram.label = d.telegram.label ∧ c.since ≤ d.since)) ∧
    (choose cs = none ↔ cs = []))

/-- A transmission begins when the line is SYNCED, in NORMAL or LOOPBACK, the quiet latch clear, none in flight and a
candidate stands: in NORMAL the in-flight record of the arbiter's choice; in LOOPBACK the choice is offered locally, to
the query answerer too, and reported SENT at once. Otherwise nothing begins (01, R12, R14, R19). That the line has been
idle for the idle gap is what the row itself stands for, the model's convention, log 8. -/
def Obligations.TransmissionBegins : Prop :=
  ∀ s : State, s.resetting = none →
    let may := s.line.state = .synced ∧ s.line.mode ≠ .listenOnly ∧ s.quiet.latch = false ∧ s.line.inFlight = none
    (¬may → exec .transmissionStart s = .next s) ∧
    (may → choose s.candidates = none → exec .transmissionStart s = .next s) ∧
    (∀ c, may → choose s.candidates = some c → s.line.mode = .normal →
      exec .transmissionStart s =
        .next { s with line := { s.line with inFlight := some ⟨c.telegram, c.source, c.origin⟩ } }) ∧
    (∀ c, may → choose s.candidates = some c → s.line.mode = .loopback →
      exec .transmissionStart s =
        .next (reportSent c.source (offer ⟨c.telegram, s.stamp, some c.origin⟩ true s)))

/-- The end of an attempt on the line, in SYNCED: in each outcome the record is deleted, a pending line mode put in force
and the silence timer restarted; SENT lowers the counter, is offered locally with the origin port excluded and reported;
a lower label alone makes it LOST, with no report; an echo error raises the counter by 2, up to 32, is reported before
the line becomes DEGRADED, and what else is on the line is not received; ABORTED is reported (01, R3, R4, R8, R10, R13,
R15, R16, R19). The model's conventions: with none in flight nothing ends (log 4), a label that is not lower changes
nothing (log 9), and the receiver's new period stands for the reception that is dropped (log 7). -/
def Obligations.AttemptEnds : Prop :=
  (∀ (r : InFlight) (s : State), s.resetting = none → s.line.inFlight = some r → s.line.state = .synced →
    let after := { s.line with
      inFlight := none, mode := s.line.pendingMode.getD s.line.mode, pendingMode := none
      silenceTimer := some s.line.silenceTime, silentFlag := false }
    (exec .attemptSent s =
      .next (reportSent r.source (offer ⟨r.telegram, s.stamp, some r.origin⟩ false
        { s with line := { after with errorCount := s.line.errorCount - 1 } }))) ∧
    (∀ winner : Label, winner.toNat < r.telegram.label.toNat →
      exec (.contentionLoss winner) s = .next { s with line := after }) ∧
    (∀ winner : Label, r.telegram.label.toNat ≤ winner.toNat → exec (.contentionLoss winner) s = .next s) ∧
    (s.line.errorCount + 2 < 32 →
      exec .echoError s =
        .next (reportError r.source { s with line := { after with
          errorCount := s.line.errorCount + 2, receiverPeriod := s.line.receiverPeriod + 1 } })) ∧
    (32 ≤ s.line.errorCount + 2 →
      exec .echoError s =
        .next (enterDegraded (reportError r.source { s with line := { after with
          errorCount := 32, receiverPeriod := s.line.receiverPeriod + 1 } }))) ∧
    abortAttempt s = reportAborted r.source { s with line := after }) ∧
  ∀ s : State, s.line.inFlight = none →
    exec .attemptSent s = .next s ∧ exec .echoError s = .next s ∧
      (∀ winner : Label, exec (.contentionLoss winner) s = .next s) ∧ abortAttempt s = s

/-- The outcome at a queue head: SENT removes it with TX_DONE; ERROR counts an attempt, and the sixteenth removes it with
TX_FAIL; the entry behind a removed head begins a candidacy; ABORTED leaves it. At a slot's due entry: SENT removes it
and its payload becomes the last-sent payload; ERROR counts an attempt, and the sixteenth removes it with TX_FAIL in the
owner; ABORTED deletes it (05, R84 to R86; 06, R110). A cut attempt reports nothing: no TX_DONE and no TX_FAIL is raised
and no last-sent payload is recorded (01, R15, R17). -/
def Obligations.OutcomeReported : Prop :=
  (∀ (p : Port) (e : TxEntry) (more : List TxEntry) (s : State), (s.tx.get p).entries = e :: more →
    let removed : State :=
      if more = [] then s.setTx p ⟨[], none⟩
      else { s with tx := s.tx.set p ⟨more, some s.nextCandidacy⟩, nextCandidacy := s.nextCandidacy + 1 }
    reportSent (.queueHead p) s = removed.raise p .txDone ∧
    (e.attempts + 1 < 16 → reportError (.queueHead p) s =
      s.setTx p ⟨{ e with attempts := e.attempts + 1 } :: more, (s.tx.get p).headSince⟩) ∧
    (16 ≤ e.attempts + 1 → reportError (.queueHead p) s = removed.raise p .txFail) ∧
    reportAborted (.queueHead p) s = s) ∧
  (∀ (n : Nat) (sl : Slot) (d : DueEntry) (s : State), s.slot n = some sl → sl.due = some d →
    reportSent (.dueEntry n) s = s.setSlot n (some { sl with due := none, lastSent := some d.payload }) ∧
    (d.attempts + 1 < 16 → reportError (.dueEntry n) s =
      s.setSlot n (some { sl with due := some { d with attempts := d.attempts + 1 } })) ∧
    (16 ≤ d.attempts + 1 → reportError (.dueEntry n) s =
      (s.setSlot n (some { sl with due := none })).raise sl.owner .txFail) ∧
    reportAborted (.dueEntry n) s = s.setSlot n (some { sl with due := none })) ∧
  (∀ s : State, reportSent .none s = s ∧ reportError .none s = s ∧ reportAborted .none s = s)

/-! ## Publication slots (06) -/

/-- SLOT_CREATE: OUT_OF_RANGE for the label, the period, the offset and the length, the translation's failure,
LABEL_IN_USE, SLOT_FULL; taken, it makes the lowest-numbered free slot live, STOPPED, with the starting values of R95.
SLOT_REMOVE withdraws the due entry, ends the stand-in with COVER_ENDED in its port, and frees the slot, in every state
(06, R95, R117). -/
def Obligations.SlotCreatedAndRemoved : Prop :=
  (∀ (p : Port) (l : Label) (period offset : Word16) (payload filler : List Byte) (s : State), s.Active p →
    payload.length ≤ 16 →
    let rest := clockedIn (label2 l ++ octets2 period ++ octets2 offset ++ [oct payload.length] ++ payload) filler
    let inRange := 1 ≤ period.toNat ∧ period.toNat ≤ 60000 ∧ offset.toNat < period.toNat
    let tr := translate (s.windows.get p) .slot l
    (¬inRange → exec (.slotCreate p rest) s = .next (s.answered p rest ⟨.outOfRange, []⟩)) ∧
    (∀ c, inRange → tr = .fails c → exec (.slotCreate p rest) s = .next (s.answered p rest ⟨c, []⟩)) ∧
    (∀ line n sl, inRange → tr = .label line → s.slot n = some sl → sl.lineLabel = line →
      exec (.slotCreate p rest) s = .next (s.answered p rest ⟨.labelInUse, []⟩)) ∧
    (∀ line, inRange → tr = .label line → (∀ n sl, s.slot n = some sl → sl.lineLabel ≠ line) →
      (∀ x ∈ s.slots, x ≠ none) → exec (.slotCreate p rest) s = .next (s.answered p rest ⟨.slotFull, []⟩)) ∧
    (∀ line n, inRange → tr = .label line → (∀ m sl, s.slot m = some sl → sl.lineLabel ≠ line) →
      s.slots[n]? = some none → (∀ m, m < n → (s.slot m).isSome = true) →
      exec (.slotCreate p rest) s =
        .next (((s.found p rest).setSlot n (some
          { owner := p, lineLabel := line, localLabel := l, mode := .repeating, source := .command, edge := none
            trigAction := .start, period := period.toNat, offset := offset.toNat, active := payload
            pendingPayload := none, pendingPeriod := none, lastSent := none, freshRequired := false
            answerQueries := false, takeoverAfter := 3, staleRun := 0, overruns := 0, state := .stopped
            nextExpiry := none, due := none, standIn := none })).setHolder p ⟨.ok, [oct n] ++ label2 line⟩))) ∧
  (∀ (p : Port) (w period offset : Word16) (payload filler : List Byte) (s : State), s.Active p →
    payload.length ≤ 248 → 16383 < w.toNat ∨ 16 < payload.length →
    let rest := clockedIn (octets2 w ++ octets2 period ++ octets2 offset ++ [oct payload.length] ++ payload) filler
    exec (.slotCreate p rest) s = .next (s.answered p rest ⟨.outOfRange, []⟩)) ∧
  (∀ (p : Port) (n : Byte) (sl : Slot) (filler : List Byte) (s : State), s.Active p → n.toNat ≤ 23 →
    s.slot n.toNat = some sl → sl.owner = p →
    let rest := clockedIn [n] filler
    let t := (cut (.dueEntry n.toNat) (s.found p rest)).setSlot n.toNat none
    (sl.standIn = none → exec (.slotRemove p rest) s = .next (t.setHolder p ⟨.ok, []⟩)) ∧
    (∀ si, sl.standIn = some si →
      exec (.slotRemove p rest) s = .next ((t.raise si.port .coverEnded).setHolder p ⟨.ok, []⟩)))

/-- The first checks of a command that names a slot: a value outside its range or a number above 23 OUT_OF_RANGE, a free
slot BAD_INDEX, another port's slot NOT_OWNER. SLOT_READ answers the record of any live slot to any ACTIVE port and
changes nothing the manual names; without a stand-in the covered run octet is unconstrained (06, R96, R118; 12, Table
12-5, R184; logs 14 and 15). -/
def Obligations.SlotsNamed : Prop :=
  (∀ (p : Port) (n : Byte) (filler : List Byte) (s : State), s.Active p →
    let one := clockedIn [n] filler
    let answers (code : ResultCode) :=
      (∀ (mode : SlotMode) (source : StartSource) (edge : Option SlotEdge) (act : TriggerAction) (offset : Word16)
          (fresh answer : Bool) (after : Nat), 1 ≤ after → after ≤ 7 →
        let rest := clockedIn ([n, mode.code, source.code, SlotEdge.optCode edge, act.code] ++ octets2 offset ++
          [setOctet fresh answer false false, oct after]) filler
        exec (.slotConfigure p rest) s = .next (s.answered p rest ⟨code, []⟩)) ∧
      exec (.slotStart p one) s = .next (s.answered p one ⟨code, []⟩) ∧
      exec (.slotRemove p one) s = .next (s.answered p one ⟨code, []⟩) ∧
      (∀ b : Bool,
        let rest := clockedIn [n, flagOctet b] filler
        exec (.slotStop p rest) s = .next (s.answered p rest ⟨code, []⟩)) ∧
      (∀ payload : List Byte, payload.length ≤ 16 →
        let rest := clockedIn ([n, oct payload.length] ++ payload) filler
        exec (.slotRefresh p rest) s = .next (s.answered p rest ⟨code, []⟩)) ∧
      (∀ period : Word16, 1 ≤ period.toNat → period.toNat ≤ 60000 →
        let rest := clockedIn ([n] ++ octets2 period) filler
        exec (.slotSetPeriod p rest) s = .next (s.answered p rest ⟨code, []⟩))
    let outOfRange (c : Instr) (rest : List Byte) := exec c s = .next (s.answered p rest ⟨.outOfRange, []⟩)
    (∀ m src edge act flags after : Byte, ∀ offset : Word16,
      1 < m.toNat ∨ 2 < src.toNat ∨ (src.toNat ≠ 0 ∧ 3 < edge.toNat) ∨ 1 < act.toNat ∨ 3 < flags.toNat ∨
        after.toNat = 0 ∨ 7 < after.toNat →
      let rest := clockedIn ([n, m, src, edge, act] ++ octets2 offset ++ [flags, after]) filler
      outOfRange (.slotConfigure p rest) rest) ∧
    (∀ flag : Byte, 1 < flag.toNat →
      let rest := clockedIn [n, flag] filler
      outOfRange (.slotStop p rest) rest) ∧
    (∀ payload : List Byte, 16 < payload.length → payload.length ≤ 253 →
      let rest := clockedIn ([n, oct payload.length] ++ payload) filler
      outOfRange (.slotRefresh p rest) rest) ∧
    (∀ period : Word16, period.toNat = 0 ∨ 60000 < period.toNat →
      let rest := clockedIn ([n] ++ octets2 period) filler
      outOfRange (.slotSetPeriod p rest) rest) ∧
    (23 < n.toNat → answers .outOfRange) ∧
    (n.toNat ≤ 23 → s.slot n.toNat = none → answers .badIndex) ∧
    (∀ sl, n.toNat ≤ 23 → s.slot n.toNat = some sl → sl.owner ≠ p → answers .notOwner)) ∧
  (∀ (p : Port) (n : Byte) (filler : List Byte) (s : State), s.Active p →
    let rest := clockedIn [n] filler
    let record (sl : Slot) (inFlight : Bool) (run : Byte) : List Byte :=
      [n, portCode sl.owner] ++ label2 sl.lineLabel ++ label2 sl.localLabel ++ [sl.state.code, sl.state.heldCode] ++
        [sl.mode.code, sl.source.code, SlotEdge.optCode sl.edge, sl.trigAction.code] ++
        count2 sl.period ++ count2 sl.offset ++
        [setOctet sl.freshRequired sl.answerQueries sl.pendingPayload.isSome sl.pendingPeriod.isSome |||
          setOctet sl.lastSent.isSome sl.due.isSome inFlight sl.standIn.isSome <<< 4] ++
        [oct sl.takeoverAfter, oct sl.staleRun, oct sl.overruns] ++
        (match sl.nextExpiry with
          | some k => count2 k
          | none => [0xFF, 0xFF]) ++
        count2 (sl.pendingPeriod.getD 0) ++
        (match sl.due with
          | some d => octets2 d.stamp ++ [oct d.attempts]
          | none => [0, 0, 0]) ++
        [portOptCode (sl.standIn.map StandIn.port), run] ++
        (oct sl.active.length :: sl.active) ++
        (oct (sl.pendingPayload.getD []).length :: sl.pendingPayload.getD []) ++
        (oct (sl.lastSent.getD []).length :: sl.lastSent.getD []) ++
        (oct ((sl.due.map DueEntry.payload).getD []).length :: (sl.due.map DueEntry.payload).getD []) ++
        (oct ((sl.standIn.map StandIn.payload).getD []).length :: (sl.standIn.map StandIn.payload).getD [])
    (23 < n.toNat → exec (.slotRead p rest) s = .next (s.answered p rest ⟨.outOfRange, []⟩)) ∧
    (n.toNat ≤ 23 → s.slot n.toNat = none → exec (.slotRead p rest) s = .next (s.answered p rest ⟨.badIndex, []⟩)) ∧
    (∀ sl inFlight, n.toNat ≤ 23 → s.slot n.toNat = some sl →
      (inFlight = true ↔ ∃ r, s.line.inFlight = some r ∧ r.source = .dueEntry n.toNat) →
      (∀ si, sl.standIn = some si →
        exec (.slotRead p rest) s = .next (s.answered p rest ⟨.ok, record sl inFlight (oct si.coveredRun)⟩)) ∧
      (sl.standIn = none → ∃ run,
        exec (.slotRead p rest) s =
          .next ({ s.answered p rest ⟨.ok, record sl inFlight run⟩ with freeIndex := s.freeIndex + 1 }))))

/-- SLOT_CONFIGURE writes its eight settings in STOPPED alone; SLOT_REFRESH and SLOT_SET_PERIOD write at once in STOPPED
and ARMED and leave a pending payload or period otherwise (06, R97, R106, R107). That no offset is refused before the
state is checked is the model's reading, log 14; that R106 and R107 go before R108 where an expiry has just left a slot
STOPPED or ARMED is its choice, log 29. -/
def Obligations.SlotSettingsWritten : Prop :=
  ∀ (p : Port) (n : Byte) (sl : Slot) (filler : List Byte) (s : State), s.Active p → n.toNat ≤ 23 →
    s.slot n.toNat = some sl → sl.owner = p →
    (∀ (mode : SlotMode) (source : StartSource) (edge : Option SlotEdge) (act : TriggerAction) (offset : Word16)
        (fresh answer : Bool) (after : Nat), 1 ≤ after → after ≤ 7 →
      let rest := clockedIn ([n, mode.code, source.code, SlotEdge.optCode edge, act.code] ++ octets2 offset ++
        [setOctet fresh answer false false, oct after]) filler
      let fits := offset.toNat < sl.period ∧ (∀ q, sl.pendingPeriod = some q → offset.toNat < q) ∧
        (source = .command ∨ edge ≠ none)
      (sl.state ≠ .stopped → exec (.slotConfigure p rest) s = .next (s.answered p rest ⟨.wrongState, []⟩)) ∧
      (sl.state = .stopped → ¬fits → exec (.slotConfigure p rest) s = .next (s.answered p rest ⟨.outOfRange, []⟩)) ∧
      (sl.state = .stopped → fits →
        exec (.slotConfigure p rest) s =
          .next (((s.found p rest).setSlot n.toNat (some { sl with
            mode := mode, source := source, edge := if source = .command then none else edge, trigAction := act
            offset := offset.toNat, freshRequired := fresh, answerQueries := answer
            takeoverAfter := after })).setHolder p ⟨.ok, []⟩))) ∧
    (∀ payload : List Byte, payload.length ≤ 16 →
      let rest := clockedIn ([n, oct payload.length] ++ payload) filler
      (sl.state = .stopped ∨ sl.state = .armed →
        exec (.slotRefresh p rest) s =
          .next (((s.found p rest).setSlot n.toNat
            (some { sl with active := payload, pendingPayload := none })).setHolder p ⟨.ok, []⟩)) ∧
      (sl.state ≠ .stopped → sl.state ≠ .armed →
        exec (.slotRefresh p rest) s =
          .next (((s.found p rest).setSlot n.toNat
            (some { sl with pendingPayload := some payload })).setHolder p ⟨.ok, []⟩))) ∧
    (∀ period : Word16, 1 ≤ period.toNat → period.toNat ≤ 60000 →
      let rest := clockedIn ([n] ++ octets2 period) filler
      (period.toNat ≤ sl.offset → exec (.slotSetPeriod p rest) s = .next (s.answered p rest ⟨.outOfRange, []⟩)) ∧
      (sl.offset < period.toNat → sl.state = .stopped ∨ sl.state = .armed →
        exec (.slotSetPeriod p rest) s =
          .next (((s.found p rest).setSlot n.toNat
            (some { sl with period := period.toNat, pendingPeriod := none })).setHolder p ⟨.ok, []⟩)) ∧
      (sl.offset < period.toNat → sl.state ≠ .stopped → sl.state ≠ .armed →
        exec (.slotSetPeriod p rest) s =
          .next (((s.found p rest).setSlot n.toNat
            (some { sl with pendingPeriod := some period.toNat })).setHolder p ⟨.ok, []⟩)))

/-- SLOT_START: from STOPPED to RUNNING with the first expiry at the offset, to ARMED, or under a set latch to HALTED
with that state held; from FINISHING back to RUNNING; else WRONG_STATE (06, R98, R99). With offset 0 the expiry is due at
the command and is an event of its own, the model's reading (log 28). SLOT_STOP: without the flag, STOPPED at once with
the due entry withdrawn; with it, by the slot's state and held state (06, R100). That the state in which the command
finds the slot decides, R98 and R100 before R108, also where an expiry that falls together with it has just left the slot
STOPPED or ARMED, is the model's choice, log 29. -/
def Obligations.SlotStartedAndStopped : Prop :=
  ∀ (p : Port) (n : Byte) (sl : Slot) (filler : List Byte) (s : State), s.Active p → n.toNat ≤ 23 →
    s.slot n.toNat = some sl → sl.owner = p →
    let rest := clockedIn [n] filler
    let put (x : Slot) := (s.found p rest).setSlot n.toNat (some x)
    let running := put { sl with staleRun := 0, state := .running, nextExpiry := some sl.offset }
    (sl.state = .stopped → s.quiet.latch = false → sl.source = .command →
      exec (.slotStart p rest) s = .next (running.setHolder p ⟨.ok, []⟩)) ∧
    (∀ pin, sl.state = .stopped → s.quiet.latch = false → sl.source = .trigger pin →
      exec (.slotStart p rest) s =
        .next ((put { sl with staleRun := 0, state := .armed }).setHolder p ⟨.ok, []⟩)) ∧
    (sl.state = .stopped → s.quiet.latch = true → sl.source = .command →
      exec (.slotStart p rest) s =
        .next ((put { sl with staleRun := 0, state := .halted .running }).setHolder p ⟨.ok, []⟩)) ∧
    (∀ pin, sl.state = .stopped → s.quiet.latch = true → sl.source = .trigger pin →
      exec (.slotStart p rest) s =
        .next ((put { sl with staleRun := 0, state := .halted .armed }).setHolder p ⟨.ok, []⟩)) ∧
    (sl.state = .finishing →
      exec (.slotStart p rest) s = .next ((put { sl with state := .running }).setHolder p ⟨.ok, []⟩)) ∧
    (sl.state ≠ .stopped → sl.state ≠ .finishing →
      exec (.slotStart p rest) s = .next (s.answered p rest ⟨.wrongState, []⟩)) ∧
    (∀ flag : Bool,
      let rest := clockedIn [n, flagOctet flag] filler
      let stopped := (cut (.dueEntry n.toNat) (s.found p rest)).setSlot n.toNat
        (some { sl with due := none, state := .stopped, nextExpiry := none })
      (sl.state = .stopped → exec (.slotStop p rest) s = .next (s.answered p rest ⟨.wrongState, []⟩)) ∧
      (sl.state ≠ .stopped → flag = false ∨ sl.state = .armed ∨ sl.state = .halted .armed →
        exec (.slotStop p rest) s = .next (stopped.setHolder p ⟨.ok, []⟩)) ∧
      (flag = true → sl.state = .running →
        exec (.slotStop p rest) s =
          .next (((s.found p rest).setSlot n.toNat (some { sl with state := .finishing })).setHolder p ⟨.ok, []⟩)) ∧
      (flag = true → sl.state = .halted .running →
        exec (.slotStop p rest) s =
          .next (((s.found p rest).setSlot n.toNat
            (some { sl with state := .halted .finishing })).setHolder p ⟨.ok, []⟩)) ∧
      (flag = true → sl.state = .finishing ∨ sl.state = .halted .finishing →
        exec (.slotStop p rest) s = .next (s.answered p rest ⟨.ok, []⟩)))

/-- An expiry: the pending period first; then fresh, repeating, stale without a stand-in, covered, or covered with
takeover, each with its payload published, its runs and its flags; then the slot's state. An expiry that is not due does
not occur (06, R101 to R103, R105; 07, R125, R126; logs 4 and 5). That a ONE_SHOT slot ends as R105 says also where R108
says of an expiry beside a SLOT_STOP with the flag or a SLOT_START that the slot is RUNNING after it is the model's
choice, log 29. -/
def Obligations.ExpiryPerformed : Prop :=
  (∀ sl : Slot,
    (sl.state = .running → sl.mode = .repeating → sl.finishExpiry = { sl with nextExpiry := some sl.period }) ∧
    (sl.state = .running → sl.mode = .oneShot → sl.source = .command →
      sl.finishExpiry = { sl with state := .stopped, nextExpiry := none }) ∧
    (∀ pin, sl.state = .running → sl.mode = .oneShot → sl.source = .trigger pin →
      sl.finishExpiry = { sl with state := .armed, nextExpiry := none }) ∧
    (sl.state = .finishing → sl.finishExpiry = { sl with state := .stopped, nextExpiry := none })) ∧
  (∀ (n : Nat) (sl : Slot) (s : State), s.resetting = none → s.slot n = some sl →
    sl.state = .running ∨ sl.state = .finishing → sl.nextExpiry = some 0 →
    let timed := { sl with period := sl.pendingPeriod.getD sl.period, pendingPeriod := none }
    let publishing (u : State) (x : Slot) (payload : List Byte) : State :=
      let entry : DueEntry := ⟨payload, s.stamp, 0, s.nextCandidacy⟩
      if x.due = none then
        { u with
          slots := s.slots.set n (some (Slot.finishExpiry { x with due := some entry }))
          nextCandidacy := s.nextCandidacy + 1 }
      else
        State.raise
          { cut (.dueEntry n) u with
            slots := s.slots.set n
              (some (Slot.finishExpiry { x with due := some entry, overruns := min 255 (x.overruns + 1) }))
            nextCandidacy := s.nextCandidacy + 1 }
          x.owner .slotOverrun
    (∀ payload, sl.pendingPayload = some payload →
      exec (.slotExpiry n) s = .next (publishing s { timed with
        active := payload, pendingPayload := none, staleRun := 0
        standIn := sl.standIn.map (fun x => { x with coveredRun := 0 }) } payload)) ∧
    (sl.pendingPayload = none → sl.freshRequired = false →
      exec (.slotExpiry n) s = .next (publishing s { timed with
        staleRun := 0, standIn := sl.standIn.map (fun x => { x with coveredRun := 0 }) } sl.active)) ∧
    (sl.pendingPayload = none → sl.freshRequired = true → sl.standIn = none →
      exec (.slotExpiry n) s =
        .next ((s.setSlot n (some (Slot.finishExpiry { timed with staleRun := min 255 (sl.staleRun + 1) }))).raise
          sl.owner .slotStale)) ∧
    (∀ si, sl.pendingPayload = none → sl.freshRequired = true → sl.standIn = some si →
      si.coveredRun + 1 < sl.takeoverAfter →
      exec (.slotExpiry n) s =
        .next (publishing ((s.raise sl.owner .slotStale).raise si.port .standinUsed) { timed with
          staleRun := min 255 (sl.staleRun + 1)
          standIn := some { si with coveredRun := si.coveredRun + 1 } } si.payload)) ∧
    (∀ si, sl.pendingPayload = none → sl.freshRequired = true → sl.standIn = some si →
      sl.takeoverAfter ≤ si.coveredRun + 1 →
      exec (.slotExpiry n) s =
        .next (publishing
          ((((s.raise sl.owner .slotStale).raise si.port .standinUsed).raise sl.owner .slotLost).raise si.port
            .slotGained)
          { timed with
            owner := si.port, active := si.payload, pendingPayload := none, standIn := none, staleRun := 0 }
          si.payload))) ∧
  (∀ (n : Nat) (s : State),
    (∀ sl, s.slot n = some sl → (sl.state ≠ .running ∧ sl.state ≠ .finishing) ∨ sl.nextExpiry ≠ some 0) →
    exec (.slotExpiry n) s = .next s)

/-- An edge on a trigger pin acts on each slot by itself: a slot whose source names the pin and whose edge admits the
sense starts from ARMED, and in RUNNING with REANCHOR its next expiry moves to the offset after the edge; every other
slot ignores it (06, R112; 10, R175). With offset 0 the expiry is due at the edge and is an event of its own, the model's
reading (log 28); that an edge also starts a slot which an expiry has just left ARMED, where R112 says that it moves the
expiry after it, is its choice (log 29). -/
def Obligations.TriggerEdgeActs : Prop :=
  ∀ (pin : TrigPin) (sense : Sense) (s : State), s.resetting = none →
    ∃ t, exec (.triggerEdge pin sense) s = .next t ∧ t = { s with slots := t.slots } ∧
      (∀ n, s.slot n = none → t.slot n = none) ∧
      (∀ (n : Nat) (sl : Slot), s.slot n = some sl →
        let selected := sl.source = .trigger pin ∧
          (sl.edge = some .both ∨ (sl.edge = some .rising ∧ sense = .rising) ∨
            (sl.edge = some .falling ∧ sense = .falling))
        let acts := selected ∧ (sl.state = .armed ∨ (sl.state = .running ∧ sl.trigAction = .reanchor))
        (¬acts → t.slot n = some sl) ∧
        (acts → t.slot n = some { sl with state := .running, nextExpiry := some sl.offset }))

/-- STANDIN_ATTACH, STANDIN_REFRESH and STANDIN_DETACH: their checks in order, the record made, its payload replaced, or
the record removed with STANDIN_GONE in the owner; the slot's own fields stay (07, R121 to R124). -/
def Obligations.StandInCommands : Prop :=
  (∀ (p : Port) (n : Byte) (w : Word16) (payload filler : List Byte) (s : State), s.Active p →
    payload.length ≤ 251 →
    let attach := clockedIn ([n] ++ octets2 w ++ [oct payload.length] ++ payload) filler
    let refresh := clockedIn ([n, oct payload.length] ++ payload) filler
    let detach := clockedIn [n] filler
    (23 < n.toNat ∨ 16383 < w.toNat ∨ 16 < payload.length →
      exec (.standinAttach p attach) s = .next (s.answered p attach ⟨.outOfRange, []⟩)) ∧
    (23 < n.toNat ∨ 16 < payload.length →
      exec (.standinRefresh p refresh) s = .next (s.answered p refresh ⟨.outOfRange, []⟩)) ∧
    (23 < n.toNat → exec (.standinDetach p detach) s = .next (s.answered p detach ⟨.outOfRange, []⟩))) ∧
  ∀ (p : Port) (n : Byte) (filler : List Byte) (s : State), s.Active p → n.toNat ≤ 23 →
    (∀ (l : Label) (payload : List Byte), payload.length ≤ 16 →
      let rest := clockedIn ([n] ++ label2 l ++ [oct payload.length] ++ payload) filler
      let tr := translate (s.windows.get p) .slot l
      let refused (code : ResultCode) := exec (.standinAttach p rest) s = .next (s.answered p rest ⟨code, []⟩)
      (s.slot n.toNat = none → refused .badIndex) ∧
      (∀ sl, s.slot n.toNat = some sl →
        (sl.owner = p → refused .wrongState) ∧
        (sl.owner ≠ p → sl.standIn ≠ none → refused .standinTaken) ∧
        (∀ c, sl.owner ≠ p → sl.standIn = none → tr = .fails c → refused c) ∧
        (∀ line, sl.owner ≠ p → sl.standIn = none → tr = .label line → line ≠ sl.lineLabel → refused .notPermitted) ∧
        (sl.owner ≠ p → sl.standIn = none → tr = .label sl.lineLabel →
          exec (.standinAttach p rest) s =
            .next (((s.found p rest).setSlot n.toNat (some { sl with standIn := some ⟨p, payload, 0⟩ })).setHolder p
              ⟨.ok, [n] ++ label2 sl.lineLabel⟩)))) ∧
    (∀ payload : List Byte, payload.length ≤ 16 →
      let rest := clockedIn ([n, oct payload.length] ++ payload) filler
      let refused (code : ResultCode) := exec (.standinRefresh p rest) s = .next (s.answered p rest ⟨code, []⟩)
      (s.slot n.toNat = none → refused .badIndex) ∧
      (∀ sl, s.slot n.toNat = some sl → sl.standIn = none → refused .wrongState) ∧
      (∀ sl si, s.slot n.toNat = some sl → sl.standIn = some si →
        (si.port ≠ p → refused .notOwner) ∧
        (si.port = p →
          exec (.standinRefresh p rest) s =
            .next (((s.found p rest).setSlot n.toNat
              (some { sl with standIn := some { si with payload := payload } })).setHolder p ⟨.ok, []⟩)))) ∧
    (∀ rest, rest = clockedIn [n] filler →
      let refused (code : ResultCode) := exec (.standinDetach p rest) s = .next (s.answered p rest ⟨code, []⟩)
      (s.slot n.toNat = none → refused .badIndex) ∧
      (∀ sl, s.slot n.toNat = some sl → sl.standIn = none → refused .wrongState) ∧
      (∀ sl si, s.slot n.toNat = some sl → sl.standIn = some si →
        (si.port ≠ p → refused .notOwner) ∧
        (si.port = p →
          exec (.standinDetach p rest) s =
            .next ((((s.found p rest).setSlot n.toNat (some { sl with standIn := none })).raise sl.owner
              .standinGone).setHolder p ⟨.ok, []⟩))))

/-! ## The line commands (01) -/

/-- LINE_SET, from the lease holder, writes rate mode, configured rate, silence time and line mode: a changed silence
time restarts a running timer; while a transmission is in flight the mode is held pending, and NORMAL cancels a pending
mode. It is refused NO_LEASE, then OUT_OF_RANGE. READ_LINE answers the line's record and changes nothing (01, R10, R13,
R20, R21, R24; 12, Table 12-2). -/
def Obligations.LineSettingsWritten : Prop :=
  ∀ (p : Port) (rateMode : RateMode) (rate : Rate) (silence : Word16) (mode : LineMode) (filler : List Byte)
    (s : State), s.Active p →
    let rest := clockedIn ([rateMode.code, rate.code] ++ octets2 silence ++ [mode.code]) filler
    let read := clockedIn [] filler
    let inRange := 50 ≤ silence.toNat ∧ silence.toNat ≤ 5000
    let written : LineUnit := { s.line with
      rateMode := rateMode, configuredRate := rate, silenceTime := silence.toNat
      silenceTimer :=
        if s.line.silenceTime ≠ silence.toNat ∧ s.line.silenceTimer ≠ none then some silence.toNat
        else s.line.silenceTimer }
    (∀ c0 c1 c4 : Byte,
      let raw := clockedIn ([c0, c1] ++ octets2 silence ++ [c4]) filler
      (s.line.lease ≠ some p → exec (.lineSet p raw) s = .next (s.answered p raw ⟨.noLease, []⟩)) ∧
      (s.line.lease = some p → ¬inRange ∨ 1 < c0.toNat ∨ 3 < c1.toNat ∨ 2 < c4.toNat →
        exec (.lineSet p raw) s = .next (s.answered p raw ⟨.outOfRange, []⟩))) ∧
    (s.line.lease = some p → inRange → s.line.inFlight = none →
      exec (.lineSet p rest) s =
        .next (({ s.found p rest with line := { written with mode := mode } }).setHolder p ⟨.ok, []⟩)) ∧
    (s.line.lease = some p → inRange → s.line.inFlight ≠ none → mode ≠ .normal →
      exec (.lineSet p rest) s =
        .next (({ s.found p rest with line := { written with pendingMode := some mode } }).setHolder p ⟨.ok, []⟩)) ∧
    (s.line.lease = some p → inRange → s.line.inFlight ≠ none → mode = .normal →
      exec (.lineSet p rest) s =
        .next (({ s.found p rest with line := { written with pendingMode := none } }).setHolder p ⟨.ok, []⟩)) ∧
    exec (.readLine p read) s =
      .next (s.answered p read ⟨.ok,
        [s.line.state.code, s.line.rateMode.code, s.line.configuredRate.code, s.line.trialRate.code, s.line.mode.code,
          (match s.line.pendingMode with
            | some m => m.code
            | none => 0xFF)] ++ count2 s.line.silenceTime ++
        [oct s.line.errorCount, flagOctet s.line.silentFlag, flagOctet s.quiet.latch, portOptCode s.line.lease]⟩)

/-- LINE_ON, from OFF alone, starts a search in AUTO and is SYNCED at once in FIXED; LINE_RESYNC, outside OFF, aborts a
transmission in flight and starts again the same way; LINE_OFF aborts and turns the line off, with the wake cause LINE,
and in OFF changes nothing. LINE_CHANGE is raised where the line state changes. Each needs the lease (01, R5, R11, R16,
R21 to R23). LINE_RESYNC and LINE_OFF abandon a reception in progress: the receiver's new period is the model's form of
that, and LINE_ON begins one too (log 7). That a FIXED start stops the dwell timer and the count, and an AUTO start the
silence timer and its flag, is the model's reading (log 21), and that LINE_OFF in OFF presents no wake cause (log 22). -/
def Obligations.LineSwitched : Prop :=
  ∀ (p : Port) (filler : List Byte) (s : State), s.Active p →
    let rest := clockedIn [] filler
    let started (u : LineUnit) : LineUnit :=
      match u.rateMode with
      | .auto => { u with
          state := .search, trialRate := u.configuredRate, cleanCount := 0, dwellTimer := some 40, errorCount := 0
          silenceTimer := none, silentFlag := false, receiverPeriod := u.receiverPeriod + 1 }
      | .fixed => { u with
          state := .synced, trialRate := u.configuredRate, cleanCount := 0, dwellTimer := none, errorCount := 0
          silenceTimer := some u.silenceTime, silentFlag := false, receiverPeriod := u.receiverPeriod + 1 }
    let aborted := abortAttempt (s.found p rest)
    let again : State := { aborted with line := started aborted.line }
    let off : State := { aborted with line := { aborted.line with
      state := .off, errorCount := 0, cleanCount := 0, dwellTimer := none, silenceTimer := none, silentFlag := false
      receiverPeriod := aborted.line.receiverPeriod + 1 } }
    (s.line.lease ≠ some p →
      exec (.lineOn p rest) s = .next (s.answered p rest ⟨.noLease, []⟩) ∧
      exec (.lineOff p rest) s = .next (s.answered p rest ⟨.noLease, []⟩) ∧
      exec (.lineResync p rest) s = .next (s.answered p rest ⟨.noLease, []⟩)) ∧
    (s.line.lease = some p → s.line.state = .off →
      exec (.lineOn p rest) s =
        .next (((({ s.found p rest with line := started s.line } : State).raiseAll .lineChange)).setHolder p
          ⟨.ok, []⟩) ∧
      exec (.lineOff p rest) s = .next (s.answered p rest ⟨.ok, []⟩) ∧
      exec (.lineResync p rest) s = .next (s.answered p rest ⟨.wrongState, []⟩)) ∧
    (s.line.lease = some p → s.line.state ≠ .off →
      exec (.lineOn p rest) s = .next (s.answered p rest ⟨.wrongState, []⟩) ∧
      exec (.lineOff p rest) s = .next ((presentLine (off.raiseAll .lineChange)).setHolder p ⟨.ok, []⟩) ∧
      ((started s.line).state ≠ s.line.state →
        exec (.lineResync p rest) s = .next ((again.raiseAll .lineChange).setHolder p ⟨.ok, []⟩)) ∧
      ((started s.line).state = s.line.state →
        exec (.lineResync p rest) s = .next (again.setHolder p ⟨.ok, []⟩)))

/-! ## Receptions, offers and the line's timers (01; 08) -/

/-- A reception end: with the receiver off, while the hub drives the line, or where the reception has been abandoned
since the activity began (the receiver's period is another), there is none. A clean telegram is offered with the stamp
counter's value, in every receiving state; it advances the search, the second one to SYNCED at the trial rate, and in
SYNCED lowers the counter. An error is not offered: it sets the search back, and in SYNCED raises the counter, at 32 to
DEGRADED. In SYNCED both restart the silence timer; in DEGRADED the line unit changes nothing (01, R2, R4, R6 to R10,
R18, R22, R23). That activity carries the number of the receiver's period it began in, and that such a row without a
reception end changes nothing, are the model's conventions, log 7. -/
def Obligations.ReceptionEnds : Prop :=
  ∀ (act : LineActivity) (s : State), s.resetting = none →
    let restarted : LineUnit := { s.line with silenceTimer := some s.line.silenceTime, silentFlag := false }
    let offered (t : Telegram) (u : State) := offer ⟨t, s.stamp, none⟩ true u
    (s.line.state = .off ∨ s.line.inFlight ≠ none ∨ act.began ≠ s.line.receiverPeriod →
      exec (.receptionEnd act) s = .next s) ∧
    (s.line.state ≠ .off → s.line.inFlight = none → act.began = s.line.receiverPeriod →
      (∀ t, judge act = .clean t →
        (s.line.state = .degraded → exec (.receptionEnd act) s = .next (offered t s)) ∧
        (s.line.state = .search → s.line.cleanCount = 0 →
          exec (.receptionEnd act) s =
            .next (offered t { s with line := { s.line with cleanCount := 1, dwellTimer := some 40 } })) ∧
        (s.line.state = .search → 1 ≤ s.line.cleanCount →
          exec (.receptionEnd act) s =
            .next (offered t (({ s with line := { restarted with
              state := .synced, configuredRate := s.line.trialRate, cleanCount := 0, dwellTimer := none
              errorCount := 0 } } : State).raiseAll .lineChange))) ∧
        (s.line.state = .synced →
          exec (.receptionEnd act) s =
            .next (offered t { s with line := { restarted with errorCount := s.line.errorCount - 1 } }))) ∧
      ((∀ t, judge act ≠ .clean t) →
        (s.line.state = .degraded → exec (.receptionEnd act) s = .next s) ∧
        (s.line.state = .search →
          exec (.receptionEnd act) s = .next { s with line := { s.line with cleanCount := 0 } }) ∧
        (s.line.state = .synced → s.line.errorCount + 1 < 32 →
          exec (.receptionEnd act) s =
            .next { s with line := { restarted with errorCount := s.line.errorCount + 1 } }) ∧
        (s.line.state = .synced → 32 ≤ s.line.errorCount + 1 →
          exec (.receptionEnd act) s =
            .next (enterDegraded { s with line := { restarted with errorCount := 32 } })))) ∧
    enterDegraded s =
      presentLine (({ s with line := { s.line with
        state := .degraded, silenceTimer := none, silentFlag := false } } : State).raiseAll .lineChange)

/-- An offer: the route table's decisions for the four ports, made on the state as it stood, become copies admitted in
the order A, B, C, D; the general-wake detector remembers a first general wake telegram for 100 ms and forgets it at the
second; a DOZING port takes ROUTE, or GENERAL where neither telegram of a completed pair excludes it, as its wake set
admits, and either of the two where both come (either may be taken first, log 6); the query answerer answers a QUERY;
nothing else changes (01, R18, R19; 03, R41; 04, R64; 06, R113; 08, R140, R143 to R145). -/
def Obligations.OfferTaken : Prop :=
  ∀ (o : Offer) (answer : Bool) (s : State),
    let t := offer o answer s
    let copied (p : Port) (u : State) : State :=
      match (o.decide s p).copy with
      | some r => admitCopy p r u
      | none => u
    let admitted := copied .d (copied .c (copied .b (copied .a s)))
    let general := o.telegram.kind = .wake ∧ o.telegram.label = 0
    let presented (p : Port) := general ∧ ∃ m, s.detector = some m ∧ m.excluded ≠ some p ∧ o.excluded ≠ some p
    let waking (p : Port) (cause : WakeCause) : PortUnit := { s.unit p with
      flags := (admitted.unit p).flags, state := .waking, wakeRecord := some ⟨cause, o.stamp⟩, wakeTimer := none
      ackTimer := some 250 }
    let staying (p : Port) : PortUnit := { s.unit p with flags := (admitted.unit p).flags }
    t.rx = admitted.rx ∧
    (general → s.detector = none → t.detector = some ⟨o.stamp, o.excluded, 100⟩) ∧
    (general → s.detector ≠ none → t.detector = none) ∧ (¬general → t.detector = s.detector) ∧
    (∀ p,
      let byRoute := (∃ n, (o.decide s p).wake = some n) ∧ (s.unit p).wakeSet.selective = true
      let byGeneral := presented p ∧ (s.unit p).wakeSet.general = true
      ((s.unit p).state ≠ .dozing → t.unit p = staying p) ∧
      (¬byRoute → ¬byGeneral → t.unit p = staying p) ∧
      (∀ n, (s.unit p).state = .dozing → byRoute → (o.decide s p).wake = some n → ¬byGeneral →
        t.unit p = waking p (.route n)) ∧
      ((s.unit p).state = .dozing → byGeneral → ¬byRoute → t.unit p = waking p .general) ∧
      (∀ n, (s.unit p).state = .dozing → byGeneral → byRoute → (o.decide s p).wake = some n →
        t.unit p = waking p (.route n) ∨ t.unit p = waking p .general)) ∧
    (answer = false ∨ o.telegram.kind ≠ .query → t.slots = s.slots ∧ t.nextCandidacy = s.nextCandidacy) ∧
    (∀ n sl, answer = true → o.telegram.kind = .query → s.slot n = some sl → sl.lineLabel = o.telegram.label →
      (∀ m x, s.slot m = some x → x.lineLabel = o.telegram.label → m = n) →
      let answers := sl.answerQueries = true ∧ (sl.state = .running ∨ sl.state = .finishing) ∧
        (sl.freshRequired = false ∨ sl.staleRun = 0) ∧ sl.due = none
      (answers → t.slots = s.slots.set n (some { sl with due := some ⟨sl.active, s.stamp, 0, s.nextCandidacy⟩ }) ∧
        t.nextCandidacy = s.nextCandidacy + 1) ∧
      (¬answers → t.slots = s.slots ∧ t.nextCandidacy = s.nextCandidacy)) ∧
    (answer = true → o.telegram.kind = .query → (∀ n sl, s.slot n = some sl → sl.lineLabel ≠ o.telegram.label) →
      t.slots = s.slots ∧ t.nextCandidacy = s.nextCandidacy) ∧
    t.windows = s.windows ∧ t.routes = s.routes ∧ t.tx = s.tx ∧ t.line = s.line ∧ t.quiet = s.quiet ∧
      t.loader = s.loader ∧ t.stamp = s.stamp ∧ t.resetting = s.resetting ∧ t.pending = s.pending

/-- The expiries of the dwell timer, the silence timer, the general-wake window and a wake timer, each once its interval
has ended, and none before; which expiries are due; the tick, which raises the stamp counter by 1 and takes one
millisecond off every running timer (01, R7, R10; 06, R93; 08, R142, R143). The expiries that stand untaken at a tick are
taken before it, each once, in some order, and none is left due: their order is a free value. That a tick settles what is
due first, and that an expiry that is not due does not occur, are the model's conventions, logs 4 and 5; that the dwell
expiry abandons a reception by a new period of the receiver, log 7. -/
def Obligations.TimersAndTick : Prop :=
  (∀ s : State, s.resetting = none →
    (s.line.state = .search → s.line.dwellTimer = some 0 →
      exec .dwellExpiry s = .next { s with line := { s.line with
        trialRate :=
          match s.line.trialRate with
          | .k100 => .k200
          | .k200 => .k400
          | .k400 => .k800
          | .k800 => .k100
        cleanCount := 0, dwellTimer := some 40, receiverPeriod := s.line.receiverPeriod + 1 } }) ∧
    (s.line.state ≠ .search ∨ s.line.dwellTimer ≠ some 0 → exec .dwellExpiry s = .next s) ∧
    (s.line.state = .synced → s.line.silenceTimer = some 0 →
      exec .silenceExpiry s = .next (({ s with line := { s.line with
        silentFlag := true, silenceTimer := none } } : State).raiseActive .lineSilent)) ∧
    (s.line.state ≠ .synced ∨ s.line.silenceTimer ≠ some 0 → exec .silenceExpiry s = .next s) ∧
    (∀ m, s.detector = some m → m.left = 0 → exec .generalWakeWindowEnd s = .next { s with detector := none }) ∧
    ((∀ m, s.detector = some m → m.left ≠ 0) → exec .generalWakeWindowEnd s = .next s) ∧
    (∀ p, (s.unit p).state = .dozing → (s.unit p).wakeTimer = some 0 → (s.unit p).wakeSet.timer = true →
      exec (.wakeTimerExpiry p) s = .next (s.setUnit p { s.unit p with
        state := .waking, wakeTimer := none, ackTimer := some 250, wakeRecord := some ⟨.timer, s.stamp⟩ })) ∧
    (∀ p, (s.unit p).state ≠ .dozing ∨ (s.unit p).wakeTimer ≠ some 0 → exec (.wakeTimerExpiry p) s = .next s)) ∧
  (∀ s : State, s.resetting = none →
    let advanced (u : State) : State := { u with
      stamp := u.stamp + 1
      ports := u.ports.mapPort (fun _ x => { x with
        presenceTimer := x.presenceTimer.map (· - 1), wakeTimer := x.wakeTimer.map (· - 1)
        ackTimer := x.ackTimer.map (· - 1) })
      slots := u.slots.map (Option.map (fun sl => { sl with nextExpiry := sl.nextExpiry.map (· - 1) }))
      line := { u.line with
        dwellTimer := u.line.dwellTimer.map (· - 1), silenceTimer := u.line.silenceTimer.map (· - 1) }
      detector := u.detector.map (fun m => { m with left := m.left - 1 })
      loader := { u.loader with timer := u.loader.timer.map (· - 1) } }
    let row : Expiry → Instr
      | .dwell => .dwellExpiry
      | .silence => .silenceExpiry
      | .window => .generalWakeWindowEnd
      | .load => .loadTimeLimit
      | .presence p => .presenceExpiry p
      | .wake p => .wakeTimerExpiry p
      | .acknowledge p => .wakeAcknowledgeExpiry p
      | .slot n => .slotExpiry n
    (∀ e, exec (row e) s = .next (takeExpiry e s)) ∧
    (∀ e, e ∈ s.dueExpiries ↔
      match e with
      | .dwell => s.line.state = .search ∧ s.line.dwellTimer = some 0
      | .silence => s.line.state = .synced ∧ s.line.silenceTimer = some 0
      | .window => ∃ m, s.detector = some m ∧ m.left = 0
      | .load => s.loader.state = .loading ∧ s.loader.timer = some 0
      | .presence p => (s.unit p).state = .active ∧ (s.unit p).presenceTimer = some 0
      | .wake p => (s.unit p).state = .dozing ∧ (s.unit p).wakeTimer = some 0
      | .acknowledge p => (s.unit p).state = .waking ∧ (s.unit p).ackTimer = some 0
      | .slot n => n < 24 ∧ ∃ sl, s.slot n = some sl ∧ (sl.state = .running ∨ sl.state = .finishing) ∧
          sl.nextExpiry = some 0) ∧
    (s.dueExpiries = [] → exec .timebaseTick s = .next (advanced s)) ∧
    (∀ e, s.dueExpiries = [e] → (takeExpiry e s).dueExpiries = [] →
      exec .timebaseTick s = .next (advanced (takeExpiry e s))) ∧
    (SlotsSafe s → ∃ (order : List Expiry) (drawn : Nat), order.Perm s.dueExpiries ∧
      let u : State := { order.foldl (fun v e => takeExpiry e v) s with freeIndex := drawn }
      u.dueExpiries = [] ∧ exec .timebaseTick s = .next (advanced u)) ∧
    ∃ t, exec .timebaseTick s = .next t ∧ t.stamp = s.stamp + 1)

/-! ## Dozing and wake (08) -/

/-- DOZE releases the lease, where the port holds it, with LEASE_FREE in every other ACTIVE port (09, R168), stops the
presence timer, puts the requested wake set in force without a SELECTIVE that fails the selective check, with
WAKE_CFG_FAULT for it, starts the wake timer for TIMER, and goes on to WAKING with PENDING where a WAKE-marked record
stands unfetched; the answer says both. A set with other bits, and TIMER with a period below 10, are refused OUT_OF_RANGE
(08, R134 to R138, R140). -/
def Obligations.DozeTaken : Prop :=
  (∀ (p : Port) (s : State),
    (s.line.lease = some p →
      releaseLease p s = ({ s with line := { s.line with lease := none } } : State).raiseActiveExcept p .leaseFree) ∧
    (s.line.lease ≠ some p → releaseLease p s = s)) ∧
  ∀ (p : Port) (filler : List Byte) (s : State), s.Active p →
    (∀ (b : Byte) (period : Word16),
      8 ≤ b.toNat ∨ (b.getLsbD 2 = true ∧ period.toNat < 10) →
      let rest := clockedIn (b :: octets2 period) filler
      exec (.doze p rest) s = .next (s.answered p rest ⟨.outOfRange, []⟩)) ∧
    (∀ (w eff : WakeSet) (period : Word16) (pending : Bool), w.timer = false ∨ 10 ≤ period.toNat →
      let check := (∃ n e, s.route n = some e ∧ e.owner = p ∧ e.action = .deliver ∧ e.wake = true) ∧
        (s.line.state = .search ∨ s.line.state = .synced)
      eff.general = w.general → eff.timer = w.timer → (eff.selective = true ↔ w.selective = true ∧ check) →
      (pending = true ↔ ∃ r ∈ (s.rx.get p).queue, r.wakeMark = true) →
      let rest := clockedIn (setOctet w.selective w.general w.timer false :: octets2 period) filler
      exec (.doze p rest) s =
        .next (((releaseLease p (s.found p rest)).modUnit p (fun u => { u with
          state := if pending then .waking else .dozing
          presenceTimer := none
          wakeSet := eff
          wakePeriod := if w.timer then some period.toNat else none
          wakeTimer := if w.timer && !pending then some period.toNat else none
          ackTimer := if pending then some 250 else none
          wakeRecord := if pending then some ⟨.pending, s.stamp⟩ else none
          flags := if w.selective && !eff.selective then u.flags ||| EventFlag.wakeCfgFault.mask else u.flags })).setHolder
            p ⟨.ok, [setOctet eff.selective eff.general eff.timer false, flagOctet pending]⟩))

/-- RESUME, in DOZING and WAKING, makes the port ACTIVE, stops its wake and wake-acknowledge timers, starts the presence
timer, and answers and clears the wake record. The wake rule: a DOZING port takes a cause its effective set admits and
becomes WAKING for 250 ms; every other cause, and every cause elsewhere, is ignored (08, R140, R145, R147; 12, Table
12-2). The cause LINE, presented to every port, changes nothing but port units. That RESUME drops the wake timer period
with the set is the model's reading, log 17. -/
def Obligations.ResumeAndWakeRule : Prop :=
  (∀ (p : Port) (filler : List Byte) (s : State), s.Ready p →
    (s.unit p).state = .dozing ∨ (s.unit p).state = .waking →
    let rest := clockedIn [] filler
    exec (.resume p rest) s =
      .next (((s.found p rest).modUnit p (fun u => { u with
        state := .active, wakeTimer := none, ackTimer := none, wakeRecord := none, wakeSet := WakeSet.empty
        wakePeriod := none
        presenceTimer := if u.presenceInterval = 0 then none else some u.presenceInterval })).setHolder p
          ⟨.ok, wakeRecordOctets (s.unit p).wakeRecord⟩)) ∧
  (∀ (u : PortUnit) (cause : WakeCause) (stamp : Stamp),
    let admitted : Prop :=
      match cause with
      | .route _ | .line => u.wakeSet.selective = true
      | .general => u.wakeSet.general = true
      | .timer => u.wakeSet.timer = true
      | .pending => True
    (u.state = .dozing → admitted → u.takeCause cause stamp = { u with
      state := .waking, wakeRecord := some ⟨cause, stamp⟩, wakeTimer := none, ackTimer := some 250 }) ∧
    (u.state ≠ .dozing ∨ ¬admitted → u.takeCause cause stamp = u)) ∧
  (∀ (s : State) (p : Port), (presentLine s).unit p = (s.unit p).takeCause .line s.stamp) ∧
  (∀ s : State, presentLine s = { s with ports := (presentLine s).ports })

/-! ## The quiet input (10) -/

/-- QUIET_CONFIG writes the edge selection under the lease; QUIET_CLEAR is refused QUIET_ACTIVE at the active level, then
WRONG_STATE, and otherwise clears the latch and returns every HALTED slot to its held state, the next expiry of RUNNING
and FINISHING at its offset after the clear (06, R116; 10, R171, R173). QUIET_CLEAR against a SLOT_STOP of a HALTED slot
without the at-expiry flag: in both orders the slot ends STOPPED with no due entry; a selected edge against a SLOT_START
from STOPPED: in both orders the slot ends HALTED with RUNNING or ARMED held, by its start source (10, R174). A selected
edge sets a clear latch: an attempt ends ABORTED, slots are HALTED and their due entries deleted, QUIET is raised; every
other edge only moves the pin (06, R115; 10, R170, R172). The model's conventions: a row is an edge whatever level was
recorded, and the pin is followed in a device reset and while LOADING (log 2); with offset 0 the expiry is due at the
clear or the start and taken as an event of its own (log 28). -/
def Obligations.QuietInputActs : Prop :=
  (∀ (p : Port) (sel : QuietSelection) (code : Byte) (filler : List Byte) (s : State), s.Active p →
    let rest := clockedIn [code] filler
    let clear := clockedIn [] filler
    let activeLevel := (s.quiet.selection = .rising ∧ s.quiet.pin = true) ∨
      (s.quiet.selection = .falling ∧ s.quiet.pin = false)
    let released (sl : Slot) : Slot :=
      match sl.state with
      | .halted .armed => { sl with state := .armed }
      | .halted .running => { sl with state := .running, nextExpiry := some sl.offset }
      | .halted .finishing => { sl with state := .finishing, nextExpiry := some sl.offset }
      | .stopped | .armed | .running | .finishing => sl
    (s.line.lease ≠ some p → exec (.quietConfig p rest) s = .next (s.answered p rest ⟨.noLease, []⟩)) ∧
    (s.line.lease = some p → 3 < code.toNat →
      exec (.quietConfig p rest) s = .next (s.answered p rest ⟨.outOfRange, []⟩)) ∧
    (s.line.lease = some p →
      (code.toNat = 0 ∧ sel = .none) ∨ (code.toNat = 1 ∧ sel = .rising) ∨ (code.toNat = 2 ∧ sel = .falling) ∨
        (code.toNat = 3 ∧ sel = .both) →
      exec (.quietConfig p rest) s =
        .next (({ s.found p rest with quiet := { s.quiet with selection := sel } }).setHolder p ⟨.ok, []⟩)) ∧
    (activeLevel → exec (.quietClear p clear) s = .next (s.answered p clear ⟨.quietActive, []⟩)) ∧
    (¬activeLevel → s.quiet.latch = false →
      exec (.quietClear p clear) s = .next (s.answered p clear ⟨.wrongState, []⟩)) ∧
    (¬activeLevel → s.quiet.latch = true →
      exec (.quietClear p clear) s =
        .next (({ s.found p clear with
          slots := s.slots.map (Option.map released)
          quiet := { s.quiet with latch := false } } : State).setHolder p ⟨.ok, []⟩))) ∧
  (∀ (p q : Port) (n : Byte) (sl : Slot) (held : HeldState) (atClear atStop : List Byte) (s : State),
    s.Active p → s.Active q → s.slot n.toNat = some sl → n.toNat ≤ 23 → sl.owner = q → sl.state = .halted held →
    s.quiet.latch = true →
    ¬((s.quiet.selection = .rising ∧ s.quiet.pin = true) ∨ (s.quiet.selection = .falling ∧ s.quiet.pin = false)) →
    let clear := exec (.quietClear p (clockedIn [] atClear))
    let stop := exec (.slotStop q (clockedIn [n, flagOctet false] atStop))
    let stopped := some { sl with state := .stopped, nextExpiry := none, due := none }
    (∃ t u, clear s = .next t ∧ stop t = .next u ∧ u.slot n.toNat = stopped) ∧
    (∃ t u, stop s = .next t ∧ clear t = .next u ∧ u.slot n.toNat = stopped)) ∧
  (∀ (p : Port) (n : Byte) (sl : Slot) (sense : Sense) (filler : List Byte) (s : State),
    s.Active p → s.slot n.toNat = some sl → n.toNat ≤ 23 → sl.owner = p → sl.state = .stopped → sl.nextExpiry = none →
    s.quiet.latch = false →
    s.quiet.selection = .both ∨ (s.quiet.selection = .rising ∧ sense = .rising) ∨
      (s.quiet.selection = .falling ∧ sense = .falling) →
    let start := exec (.slotStart p (clockedIn [n] filler))
    let edge := exec (.quietEdge sense)
    let halted := some { sl with
      staleRun := 0, state := .halted (if sl.source = .command then .running else .armed), due := none }
    (∃ t u, start s = .next t ∧ edge t = .next u ∧ u.slot n.toNat = halted) ∧
    (∃ t u, edge s = .next t ∧ start t = .next u ∧ u.slot n.toNat = halted)) ∧
  (∀ (sense : Sense) (s : State),
    let level := match sense with | .rising => true | .falling => false
    let acts := s.resetting = none ∧ s.loader.state = .ready ∧ s.quiet.latch = false ∧
      (s.quiet.selection = .both ∨ (s.quiet.selection = .rising ∧ sense = .rising) ∨
        (s.quiet.selection = .falling ∧ sense = .falling))
    let moved : State := { s with quiet := { s.quiet with pin := level } }
    let aborted := abortAttempt moved
    let halted (sl : Slot) : Slot :=
      match sl.state with
      | .armed => { sl with state := .halted .armed, nextExpiry := none, due := none }
      | .running => { sl with state := .halted .running, nextExpiry := none, due := none }
      | .finishing => { sl with state := .halted .finishing, nextExpiry := none, due := none }
      | .stopped | .halted _ => { sl with due := none }
    (¬acts → exec (.quietEdge sense) s = .next moved) ∧
    (acts → exec (.quietEdge sense) s =
      .next (({ aborted with
        slots := aborted.slots.map (Option.map halted)
        quiet := { s.quiet with pin := level, latch := true } } : State).raiseActive .quiet)))

/-! ## Device reset and the load (11) -/

/-- A device reset: while it lasts no output is driven and a power-on among its causes is what it records; at its end
every register takes its reset value, every port the cause, and the strap LOADEN decides whether the hub is READY at once
with the built-in defaults or LOADING for at most 100 ms, with the transfer that reads the image under way on the I2C
bus: the address for writing, the location 0000h, the address for reading, 262 octets, all but the last acknowledged; a
chip select under way at the end is marked; the image memory's address is 50h, plus 2 for ADR1 and 1 for ADR0 (11, R176,
R177, R180). The model's conventions: the pin's level survives (log 2); the queue of waiting commands is kept (log 3); an
end without a reset is no event (log 4); the receiver's periods go on (log 7); no octets stand as clocked out (log 10);
what the registers hold while it lasts (log 11); the built-in defaults stand while LOADING (log 12); candidacies are
numbered from 0 again (log 13); the transfer stands whole until one of its ends (log 20); `freeIndex` goes on (log 16); a
power-on merges with a reset by the pin (log 23); the mark (log 27); the mask that enables every flag (log 30). -/
def Obligations.DeviceReset : Prop :=
  (∀ (kind : ResetKind) (s : State), ∃ t, exec (.deviceResetStart kind) s = .next t ∧
    t.resetting = some (if kind = .powerOn ∨ s.resetting = some .powerOn then .powerOn else .pin) ∧
    t.len = false ∧ t.imageBus = [] ∧ (∀ p, t.attn p = false ∧ t.waken p = false) ∧
    t.line.inFlight = none ∧ t.loader.transfer = []) ∧
  (∀ (kind : ResetKind) (pins : PinsAtEnd) (s : State), s.resetting = some kind →
    let port (p : Port) : PortUnit := { PortUnit.atReset (match kind with | .powerOn => .power | .pin => .pin) with
      staleSelect := decide (p ∈ pins.selected) }
    let reads (straps : Straps) : List BusPhase :=
      let memory : Byte :=
        match straps.adr1, straps.adr0 with
        | false, false => 0x50
        | false, true => 0x51
        | true, false => 0x52
        | true, true => 0x53
      [.address memory false, .send 0x00, .send 0x00, .address memory true] ++ List.replicate 261 (.read true) ++
        [.read false]
    exec (.deviceResetEnd pins) s = .next { State.reset with
      ports := ⟨port .a, port .b, port .c, port .d⟩
      line := { LineUnit.atReset with receiverPeriod := s.line.receiverPeriod }
      quiet := ⟨.none, false, s.quiet.pin⟩
      loader :=
        if pins.straps.loaden then ⟨.loading, false, some 100, pins.straps, reads pins.straps⟩
        else ⟨.ready, false, none, pins.straps, []⟩
      freeIndex := s.freeIndex, pending := s.pending }) ∧
  (∀ (pins : PinsAtEnd) (s : State), s.resetting = none → exec (.deviceResetEnd pins) s = .next s) ∧
  (∀ l : Loader, l.busAddress.toNat =
    0x50 + 2 * (if l.straps.adr1 = true then 1 else 0) + (if l.straps.adr0 = true then 1 else 0))

/-- The load ends. A missing acknowledge, the time limit, and an image that fails a check install the built-in defaults
whole and set LOAD_FAULT; an image that passes is installed whole, and starts the line when it asks; the loader is READY
and the I2C bus released, and none of the three acts on a READY loader (11, R177 to R180, Table 11-2). The model's
conventions: an event of a load that has ended is none (log 4); the started line is a new period of the receiver (log 7);
an image of another length fails (log 20); the started line's other timers and counts are stopped and 0 (log 21); the
mask FFFFh for "every flag enabled": that 1 enables a flag is the model's choice (log 30). -/
def Obligations.LoadEnds : Prop :=
  ∀ (image : List Byte) (s : State), s.resetting = none →
    let installed (ds : Port → PortDefaults) (fault : Bool) (rateMode : RateMode) (rate : Rate) (silence : Nat)
        (mode : LineMode) (sel : QuietSelection) : State := { s with
      ports := s.ports.mapPort (fun p u => { u with
        presenceInterval := (ds p).presenceInterval, mask := (ds p).mask, defaults := ds p })
      windows := s.windows.mapPort (fun p _ => (ds p).windows)
      rx := s.rx.mapPort (fun p q => ⟨q.queue, (ds p).reserve, (ds p).limit, (ds p).policy⟩)
      line := { s.line with
        rateMode := rateMode, configuredRate := rate, trialRate := rate, silenceTime := silence, mode := mode }
      quiet := { s.quiet with selection := sel }
      loader := { s.loader with state := .ready, loadFault := fault, timer := none, transfer := [] } }
    let failed := installed
      (fun _ => ⟨Window.identity :: List.replicate 7 Window.blank, 16, 64, .dropNewest, 0, 0xFFFF#16⟩) true .auto .k400
      1000 .normal .none
    (s.loader.state = .loading →
      exec .missingAcknowledge s = .next failed ∧
      (s.loader.timer = some 0 → exec .loadTimeLimit s = .next failed) ∧
      (readImage image = none → exec (.imageReadComplete image) s = .next failed) ∧
      (image.length ≠ 262 → exec (.imageReadComplete image) s = .next failed) ∧
      (∀ i, readImage image = some i → s.line.state = .off →
        let ds (p : Port) : PortDefaults :=
          let x := i.sections.get p
          ⟨x.windows, x.reserve, x.limit, x.policy, x.presenceInterval, x.mask⟩
        let t := installed ds false i.rateMode i.rate i.silenceTime i.mode i.quiet
        (i.lineOn = false → exec (.imageReadComplete image) s = .next t) ∧
        (i.lineOn = true → i.rateMode = .auto →
          exec (.imageReadComplete image) s = .next (({ t with line := { t.line with
            state := .search, cleanCount := 0, dwellTimer := some 40, errorCount := 0, silenceTimer := none
            silentFlag := false, receiverPeriod := s.line.receiverPeriod + 1 } } : State).raiseAll .lineChange)) ∧
        (i.lineOn = true → i.rateMode = .fixed →
          exec (.imageReadComplete image) s = .next (({ t with line := { t.line with
            state := .synced, cleanCount := 0, dwellTimer := none, errorCount := 0
            silenceTimer := some i.silenceTime, silentFlag := false
            receiverPeriod := s.line.receiverPeriod + 1 } } : State).raiseAll .lineChange)))) ∧
    (s.loader.state = .ready →
      exec .missingAcknowledge s = .next s ∧ exec .loadTimeLimit s = .next s ∧
        exec (.imageReadComplete image) s = .next s)

/-- An image passes exactly when its marker, version, section count and spare octet are right, its check holds, and every
value is in its range; and then each setting is the value its octets give (11, R178, Table 11-1; 12, Table 12-7). -/
def Obligations.ImageChecked : Prop :=
  ∀ image : List Byte, image.length = 262 →
    let at' (k : Nat) : Nat := (octetAt image k).toNat
    let windowOk (o : Nat) : Prop :=
      (∀ k ∈ [o, o + 2, o + 4], (wordAt image k).toNat ≤ 16383) ∧
        wordAt image o &&& ~~~wordAt image (o + 2) = 0 ∧ wordAt image (o + 4) &&& ~~~wordAt image (o + 2) = 0 ∧
        at' (o + 6) < 16
    let start : Port → Nat
      | .a => 12
      | .b => 74
      | .c => 136
      | .d => 198
    let sectionOk (k : Nat) : Prop :=
      at' k ≤ 32 ∧ 1 ≤ at' (k + 1) ∧ at' (k + 1) ≤ 128 ∧ at' k ≤ at' (k + 1) ∧ at' (k + 2) ≤ 1 ∧
        ∀ j, j < 8 → windowOk (k + 6 + 7 * j)
    ((∃ i, readImage image = some i) ↔
      wordAt image 0 = 0x4A5A#16 ∧ at' 2 = 1 ∧ at' 3 = 4 ∧ at' 11 = 0 ∧
        (((image.take 260).map BitVec.toNat).sum + (wordAt image 260).toNat) % 65536 = 0 ∧
        at' 4 ≤ 1 ∧ at' 5 ≤ 1 ∧ at' 6 ≤ 3 ∧ at' 7 ≤ 2 ∧ at' 10 ≤ 3 ∧ 50 ≤ (wordAt image 8).toNat ∧
        (wordAt image 8).toNat ≤ 5000 ∧ ∀ p, sectionOk (start p)) ∧
    (∀ i, readImage image = some i →
      (i.lineOn = true ↔ at' 4 = 1) ∧ i.rateMode.code = octetAt image 5 ∧ i.rate.code = octetAt image 6 ∧
        i.mode.code = octetAt image 7 ∧ i.silenceTime = (wordAt image 8).toNat ∧
        QuietSelection.ofCode (octetAt image 10) = some i.quiet ∧
        ∀ p, (i.sections.get p).reserve = at' (start p) ∧ (i.sections.get p).limit = at' (start p + 1) ∧
          (i.sections.get p).policy.code = octetAt image (start p + 2) ∧
          (i.sections.get p).presenceInterval = 10 * at' (start p + 3) ∧
          (i.sections.get p).mask = wordAt image (start p + 4) ∧ (i.sections.get p).windows.length = 8 ∧
          ∀ j, j < 8 → (i.sections.get p).windows[j]? = windowAt image (start p + 6 + 7 * j))

/-! ## Invariants -/

/-- The line unit's state, counter, count and timers agree (01, Table 1-2, R5, R6, R8 to R10, R23), and the hub drives
the line only in SYNCED, in NORMAL, with the quiet latch clear (01, R13, R14, R25; 10, R172); the loader's time limit
runs and its transfer stands on the I2C bus exactly while it is LOADING outside a device reset (11, R176, R177), at every
step. Beyond the spec's words rest on the model's readings: that a line started in FIXED has its dwell timer stopped and
its count 0, and one started in AUTO its silence timer stopped and its silent flag clear (log 21); that the transfer
stands whole until one of its ends (log 20); that the beginning of a device reset stops the time limit, and that the line
unit's other registers keep their values while it lasts (log 11). -/
def Obligations.LineStaysSafe : Prop :=
  (∀ s t : State, LineSafe s → step s = .next t → LineSafe t) ∧
    (∀ s t : State, DriveSafe s → step s = .next t → DriveSafe t) ∧
    ∀ s t : State, LoaderSafe s → step s = .next t → LoaderSafe t

/-- The lease holder stays ACTIVE (09, R167), and each port's timers, wake set and wake record stay as its state allows
(08, R135, R142, R145, R147; 09, R158), at every step. -/
def Obligations.PortsStaySafe : Prop :=
  (∀ s t : State, LeaseSafe s → step s = .next t → LeaseSafe t) ∧
    ∀ s t : State, WakeSafe s → step s = .next t → WakeSafe t

/-- Every window keeps its base and map inside its mask (02, R26), and the route table its size, its share for each port
and the soundness of its entries (03, R35, R36), at every step. -/
def Obligations.TablesStaySafe : Prop :=
  (∀ s t : State, WindowsSafe s → step s = .next t → WindowsSafe t) ∧
    ∀ s t : State, RoutesSafe s → step s = .next t → RoutesSafe t

/-- The outstanding reserve stays within the free buffers, the receive queues within the pool, the pool settings within
their ranges (04, R57, R58, Table 4-1); no transmit queue exceeds 8 entries, every entry stays a telegram R1 allows with
fewer than 16 attempts, and exactly a non-empty queue has a head candidacy (01, R1; 05, R74, R75, R81, R86), at every
step. -/
def Obligations.QueuesStaySafe : Prop :=
  (∀ s t : State, PoolSafe s → step s = .next t → PoolSafe t) ∧
  (∀ s t : State, TxSafe s → step s = .next t → TxSafe t)

/-- A DETACHED port stays without route entries, slots, stand-ins, the lease, records, entries and flags, and no port
stands in for a slot of its own, at every step (07, R120; 09, R160, R162). -/
def Obligations.OwnershipStaysSafe : Prop :=
  ∀ s t : State, OwnershipSafe s → step s = .next t → OwnershipSafe t

/-- The slots stay sound and their line labels distinct, at every step (06, Table 6-1, R91, R94, R107, R115). -/
def Obligations.SlotsStaySafe : Prop :=
  ∀ s t : State, SlotsSafe s → step s = .next t → SlotsSafe t

/-- Every invariant holds in `State.reset` (01, R25; 02, R33; 03, R37; 04, R72; 05, R90; 06, R119; 08, R133; 09, R150,
R152, R162, R167; 11, R176, R177). That state is one start-up, by power-on with every strap low: the model's choice, log
1. -/
def Obligations.InvariantsAtReset : Prop :=
  LineSafe State.reset ∧ DriveSafe State.reset ∧ LoaderSafe State.reset ∧ LeaseSafe State.reset ∧ WakeSafe State.reset ∧
    WindowsSafe State.reset ∧ RoutesSafe State.reset ∧ PoolSafe State.reset ∧ TxSafe State.reset ∧
    OwnershipSafe State.reset ∧ SlotsSafe State.reset
end

