-- ==== Sys2Proof/Laws/Codes.lean ====
section
/-! SUPPORT. Reading a field back from the octets that carry it (12, R182, R184, Table 12-3), and the envelope. -/

namespace Sys2Proof.Machine

/-! ## Octets and two-octet numbers -/

@[simp] theorem octetAt_cons_zero (x : Byte) (xs : List Byte) : octetAt (x :: xs) 0 = x := rfl

@[simp] theorem octetAt_cons_succ (x : Byte) (xs : List Byte) (k : Nat) : octetAt (x :: xs) (k + 1) = octetAt xs k := rfl

@[simp] theorem wordAt_cons_succ (x : Byte) (xs : List Byte) (k : Nat) : wordAt (x :: xs) (k + 1) = wordAt xs k := rfl

@[simp] theorem wordAt_cons_cons_zero (x y : Byte) (xs : List Byte) : wordAt (x :: y :: xs) 0 = x ++ y := rfl

@[simp] theorem length_octets2 (w : Word16) : (octets2 w).length = 2 := rfl

@[simp] theorem length_label2 (l : Label) : (label2 l).length = 2 := rfl

@[simp] theorem length_count2 (n : Nat) : (count2 n).length = 2 := rfl

theorem octets2_cons (w : Word16) (xs : List Byte) :
    octets2 w ++ xs = w.extractLsb' 8 8 :: w.extractLsb' 0 8 :: xs := rfl

/-- The two octets of a number, put together, are the number. -/
@[simp] theorem high_append_low (w : Word16) : (w.extractLsb' 8 8 ++ w.extractLsb' 0 8 : BitVec 16) = w := by
  ext i hi
  simp only [BitVec.getElem_append, BitVec.getElem_extractLsb']
  split
  · next h => simp [BitVec.getLsbD_eq_getElem hi]
  · next h =>
    have : 8 + (i - 8) = i := by omega
    simp [this, BitVec.getLsbD_eq_getElem hi]

@[simp] theorem wordAt_octets2 (w : Word16) (xs : List Byte) : wordAt (octets2 w ++ xs) 0 = w := by
  simp [octets2_cons]

@[simp] theorem wordAt_octets2_nil (w : Word16) : wordAt (octets2 w) 0 = w := high_append_low w

@[simp] theorem octetAt_octets2_two (w : Word16) (xs : List Byte) (k : Nat) :
    octetAt (octets2 w ++ xs) (k + 2) = octetAt xs k := rfl

@[simp] theorem wordAt_octets2_two (w : Word16) (xs : List Byte) (k : Nat) :
    wordAt (octets2 w ++ xs) (k + 2) = wordAt xs k := rfl

@[simp] theorem drop_octets2_two (w : Word16) (xs : List Byte) (k : Nat) :
    (octets2 w ++ xs).drop (k + 2) = xs.drop k := rfl

theorem toNat_oct {n : Nat} (h : n < 256) : (oct n).toNat = n := by
  simp only [oct, BitVec.toNat_ofNat]; exact Nat.mod_eq_of_lt h

theorem toNat_word {n : Nat} (h : n < 65536) : (BitVec.ofNat 16 n).toNat = n := by
  simp only [BitVec.toNat_ofNat]; exact Nat.mod_eq_of_lt h

@[simp] theorem oct_toNat (b : Byte) : oct b.toNat = b := by simp [oct]

@[simp] theorem labelOf_label (l : Label) : labelOf (l.setWidth 16) = some l := by
  have hl : l.toNat < 16384 := l.isLt
  have h : (l.setWidth 16).toNat = l.toNat := by
    rw [BitVec.toNat_setWidth]; exact Nat.mod_eq_of_lt (by omega)
  simp only [labelOf, h, hl, if_true]
  congr 1
  apply BitVec.eq_of_toNat_eq
  simp only [BitVec.toNat_setWidth]
  have : l.toNat < 2 ^ 14 := l.isLt
  omega

/-! ## Field codes -/

@[simp] theorem flagOf_flagOctet (b : Bool) : flagOf (flagOctet b) = some b := by cases b <;> rfl

@[simp] theorem Kind.ofCode_code (k : Kind) : Kind.ofCode k.code = some k := by cases k <;> rfl

@[simp] theorem portOf_portCode (p : Port) : portOf (portCode p) = some p := by cases p <;> rfl

@[simp] theorem RateMode.ofCode_code (m : RateMode) : RateMode.ofCode m.code = some m := by cases m <;> rfl

@[simp] theorem Rate.ofCode_code (r : Rate) : Rate.ofCode r.code = some r := by cases r <;> rfl

@[simp] theorem LineMode.ofCode_code (m : LineMode) : LineMode.ofCode m.code = some m := by cases m <;> rfl

@[simp] theorem SlotEdge.ofCode_optCode (e : Option SlotEdge) : SlotEdge.ofCode (SlotEdge.optCode e) = some e := by
  rcases e with _ | e
  · rfl
  · cases e <;> rfl

@[simp] theorem Policy.ofCode_code (x : Policy) : Policy.ofCode x.code = some x := by cases x <;> rfl

@[simp] theorem Action.ofCode_code (x : Action) : Action.ofCode x.code = some x := by cases x <;> rfl

@[simp] theorem SlotMode.ofCode_code (x : SlotMode) : SlotMode.ofCode x.code = some x := by cases x <;> rfl

@[simp] theorem StartSource.ofCode_code (x : StartSource) : StartSource.ofCode x.code = some x := by
  rcases x with _ | x
  · rfl
  · cases x <;> rfl

@[simp] theorem TriggerAction.ofCode_code (x : TriggerAction) : TriggerAction.ofCode x.code = some x := by
  cases x <;> rfl

theorem LengthTest.ofCode_exact {n : Nat} (h : n ≤ 16) : LengthTest.ofCode (LengthTest.exact n).code = some (.exact n) := by
  have h256 : n < 256 := by omega
  have hne : oct n ≠ absent := by
    intro he
    have := congrArg BitVec.toNat he
    rw [toNat_oct h256] at this
    simp [absent] at this
    omega
  simp [LengthTest.ofCode, LengthTest.code, hne, toNat_oct h256, Config.maxPayload, h]

@[simp] theorem LengthTest.ofCode_any : LengthTest.ofCode LengthTest.any.code = some .any := rfl

@[simp] theorem WakeSet.ofOctet_octet (w : WakeSet) : WakeSet.ofOctet w.octet = some w := by
  obtain ⟨a, b, c⟩ := w
  cases a <;> cases b <;> cases c <;> rfl

@[simp] theorem KindSet.ofOctet_octet (k : KindSet) : KindSet.ofOctet k.octet = some k := by
  obtain ⟨a, b, c⟩ := k
  cases a <;> cases b <;> cases c <;> rfl

theorem setOctet_lt (a b c d : Bool) : (setOctet a b c d).toNat < 16 := by
  cases a <;> cases b <;> cases c <;> cases d <;> decide

theorem setOctet_lt_eight (a b c : Bool) : (setOctet a b c false).toNat < 8 := by
  cases a <;> cases b <;> cases c <;> decide

theorem setOctet_lt_four (a b : Bool) : (setOctet a b false false).toNat < 4 := by
  cases a <;> cases b <;> decide

@[simp] theorem getLsbD_setOctet_zero (a b c d : Bool) : (setOctet a b c d).getLsbD 0 = a := by
  cases a <;> cases b <;> cases c <;> cases d <;> rfl

@[simp] theorem getLsbD_setOctet_one (a b c d : Bool) : (setOctet a b c d).getLsbD 1 = b := by
  cases a <;> cases b <;> cases c <;> cases d <;> rfl

@[simp] theorem getLsbD_setOctet_two (a b c d : Bool) : (setOctet a b c d).getLsbD 2 = c := by
  cases a <;> cases b <;> cases c <;> cases d <;> rfl

@[simp] theorem getLsbD_setOctet_three (a b c d : Bool) : (setOctet a b c d).getLsbD 3 = d := by
  cases a <;> cases b <;> cases c <;> cases d <;> rfl

/-- The seven octets of a window give the window back. -/
theorem windowAt_octets (x : Byte) (w : Window) : windowAt (x :: w.octets) 1 = some w := by
  have h := setOctet_lt w.enabled w.allowData w.allowQuery w.allowSlot
  simp [windowAt, Window.octets, label2, octets2, Window.attributes, h, -BitVec.getLsbD_eq_getElem]

/-! ## Codes outside their tables (R184) -/

theorem flagOf_above {b : Byte} (h : 1 < b.toNat) : flagOf b = Option.none := by
  unfold flagOf; split <;> first | omega | rfl

theorem Kind.ofCode_above {b : Byte} (h : 2 < b.toNat) : Kind.ofCode b = Option.none := by
  unfold Kind.ofCode; split <;> first | omega | rfl

theorem portOf_above {b : Byte} (h : 3 < b.toNat) : portOf b = Option.none := by
  unfold portOf; split <;> first | omega | rfl

theorem RateMode.ofCode_above {b : Byte} (h : 1 < b.toNat) : RateMode.ofCode b = Option.none := by
  unfold RateMode.ofCode; split <;> first | omega | rfl

theorem Rate.ofCode_above {b : Byte} (h : 3 < b.toNat) : Rate.ofCode b = Option.none := by
  unfold Rate.ofCode; split <;> first | omega | rfl

theorem LineMode.ofCode_above {b : Byte} (h : 2 < b.toNat) : LineMode.ofCode b = Option.none := by
  unfold LineMode.ofCode; split <;> first | omega | rfl

theorem QuietSelection.ofCode_above {b : Byte} (h : 3 < b.toNat) : QuietSelection.ofCode b = Option.none := by
  unfold QuietSelection.ofCode; split <;> first | omega | rfl

theorem SlotEdge.ofCode_above {b : Byte} (h : 3 < b.toNat) : SlotEdge.ofCode b = Option.none := by
  unfold SlotEdge.ofCode; split <;> first | omega | rfl

theorem Policy.ofCode_above {b : Byte} (h : 1 < b.toNat) : Policy.ofCode b = Option.none := by
  unfold Policy.ofCode; split <;> first | omega | rfl

theorem Action.ofCode_above {b : Byte} (h : 1 < b.toNat) : Action.ofCode b = Option.none := by
  unfold Action.ofCode; split <;> first | omega | rfl

theorem SlotMode.ofCode_above {b : Byte} (h : 1 < b.toNat) : SlotMode.ofCode b = Option.none := by
  unfold SlotMode.ofCode; split <;> first | omega | rfl

theorem StartSource.ofCode_above {b : Byte} (h : 2 < b.toNat) : StartSource.ofCode b = Option.none := by
  unfold StartSource.ofCode; split <;> first | omega | rfl

theorem TriggerAction.ofCode_above {b : Byte} (h : 1 < b.toNat) : TriggerAction.ofCode b = Option.none := by
  unfold TriggerAction.ofCode; split <;> first | omega | rfl

theorem KindSet.ofOctet_above {b : Byte} (h : 7 < b.toNat) : KindSet.ofOctet b = Option.none := by
  rw [KindSet.ofOctet, if_neg (by omega)]

theorem WakeSet.ofOctet_above {b : Byte} (h : 7 < b.toNat) : WakeSet.ofOctet b = Option.none := by
  rw [WakeSet.ofOctet, if_neg (by omega)]

theorem dataTestOf_above {b : Byte} (mask value : List Byte) (h : 2 < b.toNat) : dataTestOf b mask value = Option.none := by
  unfold dataTestOf; split <;> first | omega | rfl

theorem labelOf_above {w : Word16} (h : 16383 < w.toNat) : labelOf w = Option.none := by rw [labelOf, if_neg (by omega)]

theorem LengthTest.ofCode_above {b : Byte} (h : 16 < b.toNat) (hb : b.toNat ≠ 255) :
    LengthTest.ofCode b = Option.none := by
  have hne : b ≠ absent := by rintro rfl; exact hb rfl
  rw [LengthTest.ofCode, if_neg hne, if_neg (by show ¬ b.toNat ≤ 16; omega)]

/-! ## The command table -/

@[simp] theorem Command.ofCode_code (c : Command) : Command.ofCode c.code = some c := by cases c <;> rfl

theorem Command.code_ne_zero (c : Command) : c.code ≠ 0 := by cases c <;> decide

/-- The codes with a command are the codes of Table 12-1. -/
theorem Command.ofCode_isSome (b : Byte) : (Command.ofCode b).isSome = isCommandCode b := by
  simp only [Command.ofCode, isCommandCode]
  have hb : b.toNat < 256 := b.isLt
  generalize b.toNat = n at hb
  interval_cases n <;> rfl

/-! ## The envelope -/

/-- An envelope of the right length gives its parameters, whatever filler follows it. -/
theorem parameters_clockedIn {len : FrameLen} {ps : List Byte} (filler : List Byte) (hlen : ps.length < 256)
    (hok : len.accepts ps = true) : parameters len (clockedIn ps filler) = some ps := by
  simp [parameters, clockedIn, envelope, toNat_oct hlen, hok]

/-- An envelope whose length is not the one required is malformed. -/
theorem parameters_badLength {len : FrameLen} {ps : List Byte} (filler : List Byte) (hlen : ps.length < 256)
    (hok : len.accepts ps = false) : parameters len (clockedIn ps filler) = none := by
  simp [parameters, clockedIn, envelope, toNat_oct hlen, hok]

end Sys2Proof.Machine
end

