-- ==== Sys2Proof/Laws/Quad.lean ====
section
/-! SUPPORT. Reading back what was written into one of four like things. -/

namespace Sys2Proof.Quad

variable {α β : Type}

@[simp] theorem get_set_same (q : Quad α) (p : Port) (x : α) : (q.set p x).get p = x := by cases p <;> rfl

@[simp] theorem get_set_ne (q : Quad α) {p r : Port} (x : α) (h : r ≠ p) : (q.set p x).get r = q.get r := by
  cases p <;> cases r <;> first | rfl | exact absurd rfl h

theorem get_set (q : Quad α) (p r : Port) (x : α) : (q.set p x).get r = if r = p then x else q.get r := by
  by_cases h : r = p
  · subst h; simp
  · simp [h]

@[simp] theorem get_all (p : Port) (x : α) : (Quad.all x).get p = x := by cases p <;> rfl

@[simp] theorem get_mapPort (f : Port → α → β) (q : Quad α) (p : Port) : (q.mapPort f).get p = f p (q.get p) := by
  cases p <;> rfl

@[simp] theorem set_set (q : Quad α) (p : Port) (x y : α) : (q.set p x).set p y = q.set p y := by cases p <;> rfl

@[simp] theorem set_get (q : Quad α) (p : Port) : q.set p (q.get p) = q := by cases p <;> rfl

theorem set_comm (q : Quad α) {p r : Port} (x y : α) (h : p ≠ r) : (q.set p x).set r y = (q.set r y).set p x := by
  cases p <;> cases r <;> first | rfl | exact absurd rfl h

theorem ext_get {q r : Quad α} (h : ∀ p, q.get p = r.get p) : q = r := by
  cases q; cases r
  have ha := h .a; have hb := h .b; have hc := h .c; have hd := h .d
  simp only [get] at ha hb hc hd
  subst ha; subst hb; subst hc; subst hd; rfl

end Sys2Proof.Quad
end

