-- ==== Sys2Proof/Laws/State.lean ====
section
/-! SUPPORT. What each update of the state writes and leaves, field by field; every lemma holds by computation. -/

namespace Sys2Proof.Machine

@[simp] theorem State.setUnit_ports (s : State) (p : Port) (u : PortUnit) : (s.setUnit p u).ports = s.ports.set p u := rfl
@[simp] theorem State.setUnit_windows (s : State) (p : Port) (u : PortUnit) : (s.setUnit p u).windows = s.windows := rfl
@[simp] theorem State.setUnit_routes (s : State) (p : Port) (u : PortUnit) : (s.setUnit p u).routes = s.routes := rfl
@[simp] theorem State.setUnit_rx (s : State) (p : Port) (u : PortUnit) : (s.setUnit p u).rx = s.rx := rfl
@[simp] theorem State.setUnit_tx (s : State) (p : Port) (u : PortUnit) : (s.setUnit p u).tx = s.tx := rfl
@[simp] theorem State.setUnit_slots (s : State) (p : Port) (u : PortUnit) : (s.setUnit p u).slots = s.slots := rfl
@[simp] theorem State.setUnit_line (s : State) (p : Port) (u : PortUnit) : (s.setUnit p u).line = s.line := rfl
@[simp] theorem State.setUnit_detector (s : State) (p : Port) (u : PortUnit) : (s.setUnit p u).detector = s.detector := rfl
@[simp] theorem State.setUnit_quiet (s : State) (p : Port) (u : PortUnit) : (s.setUnit p u).quiet = s.quiet := rfl
@[simp] theorem State.setUnit_loader (s : State) (p : Port) (u : PortUnit) : (s.setUnit p u).loader = s.loader := rfl
@[simp] theorem State.setUnit_stamp (s : State) (p : Port) (u : PortUnit) : (s.setUnit p u).stamp = s.stamp := rfl
@[simp] theorem State.setUnit_resetting (s : State) (p : Port) (u : PortUnit) : (s.setUnit p u).resetting = s.resetting := rfl
@[simp] theorem State.setUnit_nextCandidacy (s : State) (p : Port) (u : PortUnit) : (s.setUnit p u).nextCandidacy = s.nextCandidacy := rfl
@[simp] theorem State.setUnit_freeIndex (s : State) (p : Port) (u : PortUnit) : (s.setUnit p u).freeIndex = s.freeIndex := rfl
@[simp] theorem State.setUnit_pending (s : State) (p : Port) (u : PortUnit) : (s.setUnit p u).pending = s.pending := rfl

@[simp] theorem State.modUnit_ports (s : State) (p : Port) (f : PortUnit → PortUnit) : (s.modUnit p f).ports = s.ports.set p (f (s.unit p)) := rfl
@[simp] theorem State.modUnit_windows (s : State) (p : Port) (f : PortUnit → PortUnit) : (s.modUnit p f).windows = s.windows := rfl
@[simp] theorem State.modUnit_routes (s : State) (p : Port) (f : PortUnit → PortUnit) : (s.modUnit p f).routes = s.routes := rfl
@[simp] theorem State.modUnit_rx (s : State) (p : Port) (f : PortUnit → PortUnit) : (s.modUnit p f).rx = s.rx := rfl
@[simp] theorem State.modUnit_tx (s : State) (p : Port) (f : PortUnit → PortUnit) : (s.modUnit p f).tx = s.tx := rfl
@[simp] theorem State.modUnit_slots (s : State) (p : Port) (f : PortUnit → PortUnit) : (s.modUnit p f).slots = s.slots := rfl
@[simp] theorem State.modUnit_line (s : State) (p : Port) (f : PortUnit → PortUnit) : (s.modUnit p f).line = s.line := rfl
@[simp] theorem State.modUnit_detector (s : State) (p : Port) (f : PortUnit → PortUnit) : (s.modUnit p f).detector = s.detector := rfl
@[simp] theorem State.modUnit_quiet (s : State) (p : Port) (f : PortUnit → PortUnit) : (s.modUnit p f).quiet = s.quiet := rfl
@[simp] theorem State.modUnit_loader (s : State) (p : Port) (f : PortUnit → PortUnit) : (s.modUnit p f).loader = s.loader := rfl
@[simp] theorem State.modUnit_stamp (s : State) (p : Port) (f : PortUnit → PortUnit) : (s.modUnit p f).stamp = s.stamp := rfl
@[simp] theorem State.modUnit_resetting (s : State) (p : Port) (f : PortUnit → PortUnit) : (s.modUnit p f).resetting = s.resetting := rfl
@[simp] theorem State.modUnit_nextCandidacy (s : State) (p : Port) (f : PortUnit → PortUnit) : (s.modUnit p f).nextCandidacy = s.nextCandidacy := rfl
@[simp] theorem State.modUnit_freeIndex (s : State) (p : Port) (f : PortUnit → PortUnit) : (s.modUnit p f).freeIndex = s.freeIndex := rfl
@[simp] theorem State.modUnit_pending (s : State) (p : Port) (f : PortUnit → PortUnit) : (s.modUnit p f).pending = s.pending := rfl

@[simp] theorem State.setRx_ports (s : State) (p : Port) (q : RxQueue) : (s.setRx p q).ports = s.ports := rfl
@[simp] theorem State.setRx_windows (s : State) (p : Port) (q : RxQueue) : (s.setRx p q).windows = s.windows := rfl
@[simp] theorem State.setRx_routes (s : State) (p : Port) (q : RxQueue) : (s.setRx p q).routes = s.routes := rfl
@[simp] theorem State.setRx_rx (s : State) (p : Port) (q : RxQueue) : (s.setRx p q).rx = s.rx.set p q := rfl
@[simp] theorem State.setRx_tx (s : State) (p : Port) (q : RxQueue) : (s.setRx p q).tx = s.tx := rfl
@[simp] theorem State.setRx_slots (s : State) (p : Port) (q : RxQueue) : (s.setRx p q).slots = s.slots := rfl
@[simp] theorem State.setRx_line (s : State) (p : Port) (q : RxQueue) : (s.setRx p q).line = s.line := rfl
@[simp] theorem State.setRx_detector (s : State) (p : Port) (q : RxQueue) : (s.setRx p q).detector = s.detector := rfl
@[simp] theorem State.setRx_quiet (s : State) (p : Port) (q : RxQueue) : (s.setRx p q).quiet = s.quiet := rfl
@[simp] theorem State.setRx_loader (s : State) (p : Port) (q : RxQueue) : (s.setRx p q).loader = s.loader := rfl
@[simp] theorem State.setRx_stamp (s : State) (p : Port) (q : RxQueue) : (s.setRx p q).stamp = s.stamp := rfl
@[simp] theorem State.setRx_resetting (s : State) (p : Port) (q : RxQueue) : (s.setRx p q).resetting = s.resetting := rfl
@[simp] theorem State.setRx_nextCandidacy (s : State) (p : Port) (q : RxQueue) : (s.setRx p q).nextCandidacy = s.nextCandidacy := rfl
@[simp] theorem State.setRx_freeIndex (s : State) (p : Port) (q : RxQueue) : (s.setRx p q).freeIndex = s.freeIndex := rfl
@[simp] theorem State.setRx_pending (s : State) (p : Port) (q : RxQueue) : (s.setRx p q).pending = s.pending := rfl

@[simp] theorem State.setTx_ports (s : State) (p : Port) (q : TxQueue) : (s.setTx p q).ports = s.ports := rfl
@[simp] theorem State.setTx_windows (s : State) (p : Port) (q : TxQueue) : (s.setTx p q).windows = s.windows := rfl
@[simp] theorem State.setTx_routes (s : State) (p : Port) (q : TxQueue) : (s.setTx p q).routes = s.routes := rfl
@[simp] theorem State.setTx_rx (s : State) (p : Port) (q : TxQueue) : (s.setTx p q).rx = s.rx := rfl
@[simp] theorem State.setTx_tx (s : State) (p : Port) (q : TxQueue) : (s.setTx p q).tx = s.tx.set p q := rfl
@[simp] theorem State.setTx_slots (s : State) (p : Port) (q : TxQueue) : (s.setTx p q).slots = s.slots := rfl
@[simp] theorem State.setTx_line (s : State) (p : Port) (q : TxQueue) : (s.setTx p q).line = s.line := rfl
@[simp] theorem State.setTx_detector (s : State) (p : Port) (q : TxQueue) : (s.setTx p q).detector = s.detector := rfl
@[simp] theorem State.setTx_quiet (s : State) (p : Port) (q : TxQueue) : (s.setTx p q).quiet = s.quiet := rfl
@[simp] theorem State.setTx_loader (s : State) (p : Port) (q : TxQueue) : (s.setTx p q).loader = s.loader := rfl
@[simp] theorem State.setTx_stamp (s : State) (p : Port) (q : TxQueue) : (s.setTx p q).stamp = s.stamp := rfl
@[simp] theorem State.setTx_resetting (s : State) (p : Port) (q : TxQueue) : (s.setTx p q).resetting = s.resetting := rfl
@[simp] theorem State.setTx_nextCandidacy (s : State) (p : Port) (q : TxQueue) : (s.setTx p q).nextCandidacy = s.nextCandidacy := rfl
@[simp] theorem State.setTx_freeIndex (s : State) (p : Port) (q : TxQueue) : (s.setTx p q).freeIndex = s.freeIndex := rfl
@[simp] theorem State.setTx_pending (s : State) (p : Port) (q : TxQueue) : (s.setTx p q).pending = s.pending := rfl

@[simp] theorem State.setSlot_ports (s : State) (n : Nat) (x : Option Slot) : (s.setSlot n x).ports = s.ports := rfl
@[simp] theorem State.setSlot_windows (s : State) (n : Nat) (x : Option Slot) : (s.setSlot n x).windows = s.windows := rfl
@[simp] theorem State.setSlot_routes (s : State) (n : Nat) (x : Option Slot) : (s.setSlot n x).routes = s.routes := rfl
@[simp] theorem State.setSlot_rx (s : State) (n : Nat) (x : Option Slot) : (s.setSlot n x).rx = s.rx := rfl
@[simp] theorem State.setSlot_tx (s : State) (n : Nat) (x : Option Slot) : (s.setSlot n x).tx = s.tx := rfl
@[simp] theorem State.setSlot_slots (s : State) (n : Nat) (x : Option Slot) : (s.setSlot n x).slots = s.slots.set n x := rfl
@[simp] theorem State.setSlot_line (s : State) (n : Nat) (x : Option Slot) : (s.setSlot n x).line = s.line := rfl
@[simp] theorem State.setSlot_detector (s : State) (n : Nat) (x : Option Slot) : (s.setSlot n x).detector = s.detector := rfl
@[simp] theorem State.setSlot_quiet (s : State) (n : Nat) (x : Option Slot) : (s.setSlot n x).quiet = s.quiet := rfl
@[simp] theorem State.setSlot_loader (s : State) (n : Nat) (x : Option Slot) : (s.setSlot n x).loader = s.loader := rfl
@[simp] theorem State.setSlot_stamp (s : State) (n : Nat) (x : Option Slot) : (s.setSlot n x).stamp = s.stamp := rfl
@[simp] theorem State.setSlot_resetting (s : State) (n : Nat) (x : Option Slot) : (s.setSlot n x).resetting = s.resetting := rfl
@[simp] theorem State.setSlot_nextCandidacy (s : State) (n : Nat) (x : Option Slot) : (s.setSlot n x).nextCandidacy = s.nextCandidacy := rfl
@[simp] theorem State.setSlot_freeIndex (s : State) (n : Nat) (x : Option Slot) : (s.setSlot n x).freeIndex = s.freeIndex := rfl
@[simp] theorem State.setSlot_pending (s : State) (n : Nat) (x : Option Slot) : (s.setSlot n x).pending = s.pending := rfl

@[simp] theorem State.modLine_ports (s : State) (f : LineUnit → LineUnit) : (s.modLine f).ports = s.ports := rfl
@[simp] theorem State.modLine_windows (s : State) (f : LineUnit → LineUnit) : (s.modLine f).windows = s.windows := rfl
@[simp] theorem State.modLine_routes (s : State) (f : LineUnit → LineUnit) : (s.modLine f).routes = s.routes := rfl
@[simp] theorem State.modLine_rx (s : State) (f : LineUnit → LineUnit) : (s.modLine f).rx = s.rx := rfl
@[simp] theorem State.modLine_tx (s : State) (f : LineUnit → LineUnit) : (s.modLine f).tx = s.tx := rfl
@[simp] theorem State.modLine_slots (s : State) (f : LineUnit → LineUnit) : (s.modLine f).slots = s.slots := rfl
@[simp] theorem State.modLine_line (s : State) (f : LineUnit → LineUnit) : (s.modLine f).line = f s.line := rfl
@[simp] theorem State.modLine_detector (s : State) (f : LineUnit → LineUnit) : (s.modLine f).detector = s.detector := rfl
@[simp] theorem State.modLine_quiet (s : State) (f : LineUnit → LineUnit) : (s.modLine f).quiet = s.quiet := rfl
@[simp] theorem State.modLine_loader (s : State) (f : LineUnit → LineUnit) : (s.modLine f).loader = s.loader := rfl
@[simp] theorem State.modLine_stamp (s : State) (f : LineUnit → LineUnit) : (s.modLine f).stamp = s.stamp := rfl
@[simp] theorem State.modLine_resetting (s : State) (f : LineUnit → LineUnit) : (s.modLine f).resetting = s.resetting := rfl
@[simp] theorem State.modLine_nextCandidacy (s : State) (f : LineUnit → LineUnit) : (s.modLine f).nextCandidacy = s.nextCandidacy := rfl
@[simp] theorem State.modLine_freeIndex (s : State) (f : LineUnit → LineUnit) : (s.modLine f).freeIndex = s.freeIndex := rfl
@[simp] theorem State.modLine_pending (s : State) (f : LineUnit → LineUnit) : (s.modLine f).pending = s.pending := rfl

@[simp] theorem State.raise_ports (s : State) (p : Port) (f : EventFlag) : (s.raise p f).ports = s.ports.set p ((s.unit p).raise f) := rfl
@[simp] theorem State.raise_windows (s : State) (p : Port) (f : EventFlag) : (s.raise p f).windows = s.windows := rfl
@[simp] theorem State.raise_routes (s : State) (p : Port) (f : EventFlag) : (s.raise p f).routes = s.routes := rfl
@[simp] theorem State.raise_rx (s : State) (p : Port) (f : EventFlag) : (s.raise p f).rx = s.rx := rfl
@[simp] theorem State.raise_tx (s : State) (p : Port) (f : EventFlag) : (s.raise p f).tx = s.tx := rfl
@[simp] theorem State.raise_slots (s : State) (p : Port) (f : EventFlag) : (s.raise p f).slots = s.slots := rfl
@[simp] theorem State.raise_line (s : State) (p : Port) (f : EventFlag) : (s.raise p f).line = s.line := rfl
@[simp] theorem State.raise_detector (s : State) (p : Port) (f : EventFlag) : (s.raise p f).detector = s.detector := rfl
@[simp] theorem State.raise_quiet (s : State) (p : Port) (f : EventFlag) : (s.raise p f).quiet = s.quiet := rfl
@[simp] theorem State.raise_loader (s : State) (p : Port) (f : EventFlag) : (s.raise p f).loader = s.loader := rfl
@[simp] theorem State.raise_stamp (s : State) (p : Port) (f : EventFlag) : (s.raise p f).stamp = s.stamp := rfl
@[simp] theorem State.raise_resetting (s : State) (p : Port) (f : EventFlag) : (s.raise p f).resetting = s.resetting := rfl
@[simp] theorem State.raise_nextCandidacy (s : State) (p : Port) (f : EventFlag) : (s.raise p f).nextCandidacy = s.nextCandidacy := rfl
@[simp] theorem State.raise_freeIndex (s : State) (p : Port) (f : EventFlag) : (s.raise p f).freeIndex = s.freeIndex := rfl
@[simp] theorem State.raise_pending (s : State) (p : Port) (f : EventFlag) : (s.raise p f).pending = s.pending := rfl

@[simp] theorem State.raiseAll_ports (s : State) (f : EventFlag) : (s.raiseAll f).ports = s.ports.mapPort (fun _ u => u.raise f) := rfl
@[simp] theorem State.raiseAll_windows (s : State) (f : EventFlag) : (s.raiseAll f).windows = s.windows := rfl
@[simp] theorem State.raiseAll_routes (s : State) (f : EventFlag) : (s.raiseAll f).routes = s.routes := rfl
@[simp] theorem State.raiseAll_rx (s : State) (f : EventFlag) : (s.raiseAll f).rx = s.rx := rfl
@[simp] theorem State.raiseAll_tx (s : State) (f : EventFlag) : (s.raiseAll f).tx = s.tx := rfl
@[simp] theorem State.raiseAll_slots (s : State) (f : EventFlag) : (s.raiseAll f).slots = s.slots := rfl
@[simp] theorem State.raiseAll_line (s : State) (f : EventFlag) : (s.raiseAll f).line = s.line := rfl
@[simp] theorem State.raiseAll_detector (s : State) (f : EventFlag) : (s.raiseAll f).detector = s.detector := rfl
@[simp] theorem State.raiseAll_quiet (s : State) (f : EventFlag) : (s.raiseAll f).quiet = s.quiet := rfl
@[simp] theorem State.raiseAll_loader (s : State) (f : EventFlag) : (s.raiseAll f).loader = s.loader := rfl
@[simp] theorem State.raiseAll_stamp (s : State) (f : EventFlag) : (s.raiseAll f).stamp = s.stamp := rfl
@[simp] theorem State.raiseAll_resetting (s : State) (f : EventFlag) : (s.raiseAll f).resetting = s.resetting := rfl
@[simp] theorem State.raiseAll_nextCandidacy (s : State) (f : EventFlag) : (s.raiseAll f).nextCandidacy = s.nextCandidacy := rfl
@[simp] theorem State.raiseAll_freeIndex (s : State) (f : EventFlag) : (s.raiseAll f).freeIndex = s.freeIndex := rfl
@[simp] theorem State.raiseAll_pending (s : State) (f : EventFlag) : (s.raiseAll f).pending = s.pending := rfl

@[simp] theorem State.raiseActive_ports (s : State) (f : EventFlag) : (s.raiseActive f).ports = s.ports.mapPort (fun _ u => if u.state = .active then u.raise f else u) := rfl
@[simp] theorem State.raiseActive_windows (s : State) (f : EventFlag) : (s.raiseActive f).windows = s.windows := rfl
@[simp] theorem State.raiseActive_routes (s : State) (f : EventFlag) : (s.raiseActive f).routes = s.routes := rfl
@[simp] theorem State.raiseActive_rx (s : State) (f : EventFlag) : (s.raiseActive f).rx = s.rx := rfl
@[simp] theorem State.raiseActive_tx (s : State) (f : EventFlag) : (s.raiseActive f).tx = s.tx := rfl
@[simp] theorem State.raiseActive_slots (s : State) (f : EventFlag) : (s.raiseActive f).slots = s.slots := rfl
@[simp] theorem State.raiseActive_line (s : State) (f : EventFlag) : (s.raiseActive f).line = s.line := rfl
@[simp] theorem State.raiseActive_detector (s : State) (f : EventFlag) : (s.raiseActive f).detector = s.detector := rfl
@[simp] theorem State.raiseActive_quiet (s : State) (f : EventFlag) : (s.raiseActive f).quiet = s.quiet := rfl
@[simp] theorem State.raiseActive_loader (s : State) (f : EventFlag) : (s.raiseActive f).loader = s.loader := rfl
@[simp] theorem State.raiseActive_stamp (s : State) (f : EventFlag) : (s.raiseActive f).stamp = s.stamp := rfl
@[simp] theorem State.raiseActive_resetting (s : State) (f : EventFlag) : (s.raiseActive f).resetting = s.resetting := rfl
@[simp] theorem State.raiseActive_nextCandidacy (s : State) (f : EventFlag) : (s.raiseActive f).nextCandidacy = s.nextCandidacy := rfl
@[simp] theorem State.raiseActive_freeIndex (s : State) (f : EventFlag) : (s.raiseActive f).freeIndex = s.freeIndex := rfl
@[simp] theorem State.raiseActive_pending (s : State) (f : EventFlag) : (s.raiseActive f).pending = s.pending := rfl

@[simp] theorem State.raiseActiveExcept_ports (s : State) (p : Port) (f : EventFlag) : (s.raiseActiveExcept p f).ports = s.ports.mapPort (fun q u => if q ≠ p ∧ u.state = .active then u.raise f else u) := rfl
@[simp] theorem State.raiseActiveExcept_windows (s : State) (p : Port) (f : EventFlag) : (s.raiseActiveExcept p f).windows = s.windows := rfl
@[simp] theorem State.raiseActiveExcept_routes (s : State) (p : Port) (f : EventFlag) : (s.raiseActiveExcept p f).routes = s.routes := rfl
@[simp] theorem State.raiseActiveExcept_rx (s : State) (p : Port) (f : EventFlag) : (s.raiseActiveExcept p f).rx = s.rx := rfl
@[simp] theorem State.raiseActiveExcept_tx (s : State) (p : Port) (f : EventFlag) : (s.raiseActiveExcept p f).tx = s.tx := rfl
@[simp] theorem State.raiseActiveExcept_slots (s : State) (p : Port) (f : EventFlag) : (s.raiseActiveExcept p f).slots = s.slots := rfl
@[simp] theorem State.raiseActiveExcept_line (s : State) (p : Port) (f : EventFlag) : (s.raiseActiveExcept p f).line = s.line := rfl
@[simp] theorem State.raiseActiveExcept_detector (s : State) (p : Port) (f : EventFlag) : (s.raiseActiveExcept p f).detector = s.detector := rfl
@[simp] theorem State.raiseActiveExcept_quiet (s : State) (p : Port) (f : EventFlag) : (s.raiseActiveExcept p f).quiet = s.quiet := rfl
@[simp] theorem State.raiseActiveExcept_loader (s : State) (p : Port) (f : EventFlag) : (s.raiseActiveExcept p f).loader = s.loader := rfl
@[simp] theorem State.raiseActiveExcept_stamp (s : State) (p : Port) (f : EventFlag) : (s.raiseActiveExcept p f).stamp = s.stamp := rfl
@[simp] theorem State.raiseActiveExcept_resetting (s : State) (p : Port) (f : EventFlag) : (s.raiseActiveExcept p f).resetting = s.resetting := rfl
@[simp] theorem State.raiseActiveExcept_nextCandidacy (s : State) (p : Port) (f : EventFlag) : (s.raiseActiveExcept p f).nextCandidacy = s.nextCandidacy := rfl
@[simp] theorem State.raiseActiveExcept_freeIndex (s : State) (p : Port) (f : EventFlag) : (s.raiseActiveExcept p f).freeIndex = s.freeIndex := rfl
@[simp] theorem State.raiseActiveExcept_pending (s : State) (p : Port) (f : EventFlag) : (s.raiseActiveExcept p f).pending = s.pending := rfl

@[simp] theorem State.shiftOut_ports (s : State) (p : Port) (n : Nat) : (s.shiftOut p n).ports = s.ports.set p { s.unit p with sdo := (s.unit p).holder.clockedOut n } := rfl
@[simp] theorem State.shiftOut_windows (s : State) (p : Port) (n : Nat) : (s.shiftOut p n).windows = s.windows := rfl
@[simp] theorem State.shiftOut_routes (s : State) (p : Port) (n : Nat) : (s.shiftOut p n).routes = s.routes := rfl
@[simp] theorem State.shiftOut_rx (s : State) (p : Port) (n : Nat) : (s.shiftOut p n).rx = s.rx := rfl
@[simp] theorem State.shiftOut_tx (s : State) (p : Port) (n : Nat) : (s.shiftOut p n).tx = s.tx := rfl
@[simp] theorem State.shiftOut_slots (s : State) (p : Port) (n : Nat) : (s.shiftOut p n).slots = s.slots := rfl
@[simp] theorem State.shiftOut_line (s : State) (p : Port) (n : Nat) : (s.shiftOut p n).line = s.line := rfl
@[simp] theorem State.shiftOut_detector (s : State) (p : Port) (n : Nat) : (s.shiftOut p n).detector = s.detector := rfl
@[simp] theorem State.shiftOut_quiet (s : State) (p : Port) (n : Nat) : (s.shiftOut p n).quiet = s.quiet := rfl
@[simp] theorem State.shiftOut_loader (s : State) (p : Port) (n : Nat) : (s.shiftOut p n).loader = s.loader := rfl
@[simp] theorem State.shiftOut_stamp (s : State) (p : Port) (n : Nat) : (s.shiftOut p n).stamp = s.stamp := rfl
@[simp] theorem State.shiftOut_resetting (s : State) (p : Port) (n : Nat) : (s.shiftOut p n).resetting = s.resetting := rfl
@[simp] theorem State.shiftOut_nextCandidacy (s : State) (p : Port) (n : Nat) : (s.shiftOut p n).nextCandidacy = s.nextCandidacy := rfl
@[simp] theorem State.shiftOut_freeIndex (s : State) (p : Port) (n : Nat) : (s.shiftOut p n).freeIndex = s.freeIndex := rfl
@[simp] theorem State.shiftOut_pending (s : State) (p : Port) (n : Nat) : (s.shiftOut p n).pending = s.pending := rfl

@[simp] theorem State.setHolder_ports (s : State) (p : Port) (r : Response) : (s.setHolder p r).ports = s.ports.set p { s.unit p with holder := r } := rfl
@[simp] theorem State.setHolder_windows (s : State) (p : Port) (r : Response) : (s.setHolder p r).windows = s.windows := rfl
@[simp] theorem State.setHolder_routes (s : State) (p : Port) (r : Response) : (s.setHolder p r).routes = s.routes := rfl
@[simp] theorem State.setHolder_rx (s : State) (p : Port) (r : Response) : (s.setHolder p r).rx = s.rx := rfl
@[simp] theorem State.setHolder_tx (s : State) (p : Port) (r : Response) : (s.setHolder p r).tx = s.tx := rfl
@[simp] theorem State.setHolder_slots (s : State) (p : Port) (r : Response) : (s.setHolder p r).slots = s.slots := rfl
@[simp] theorem State.setHolder_line (s : State) (p : Port) (r : Response) : (s.setHolder p r).line = s.line := rfl
@[simp] theorem State.setHolder_detector (s : State) (p : Port) (r : Response) : (s.setHolder p r).detector = s.detector := rfl
@[simp] theorem State.setHolder_quiet (s : State) (p : Port) (r : Response) : (s.setHolder p r).quiet = s.quiet := rfl
@[simp] theorem State.setHolder_loader (s : State) (p : Port) (r : Response) : (s.setHolder p r).loader = s.loader := rfl
@[simp] theorem State.setHolder_stamp (s : State) (p : Port) (r : Response) : (s.setHolder p r).stamp = s.stamp := rfl
@[simp] theorem State.setHolder_resetting (s : State) (p : Port) (r : Response) : (s.setHolder p r).resetting = s.resetting := rfl
@[simp] theorem State.setHolder_nextCandidacy (s : State) (p : Port) (r : Response) : (s.setHolder p r).nextCandidacy = s.nextCandidacy := rfl
@[simp] theorem State.setHolder_freeIndex (s : State) (p : Port) (r : Response) : (s.setHolder p r).freeIndex = s.freeIndex := rfl
@[simp] theorem State.setHolder_pending (s : State) (p : Port) (r : Response) : (s.setHolder p r).pending = s.pending := rfl

@[simp] theorem State.bumpCandidacy_ports (s : State) : (s.bumpCandidacy).ports = s.ports := rfl
@[simp] theorem State.bumpCandidacy_windows (s : State) : (s.bumpCandidacy).windows = s.windows := rfl
@[simp] theorem State.bumpCandidacy_routes (s : State) : (s.bumpCandidacy).routes = s.routes := rfl
@[simp] theorem State.bumpCandidacy_rx (s : State) : (s.bumpCandidacy).rx = s.rx := rfl
@[simp] theorem State.bumpCandidacy_tx (s : State) : (s.bumpCandidacy).tx = s.tx := rfl
@[simp] theorem State.bumpCandidacy_slots (s : State) : (s.bumpCandidacy).slots = s.slots := rfl
@[simp] theorem State.bumpCandidacy_line (s : State) : (s.bumpCandidacy).line = s.line := rfl
@[simp] theorem State.bumpCandidacy_detector (s : State) : (s.bumpCandidacy).detector = s.detector := rfl
@[simp] theorem State.bumpCandidacy_quiet (s : State) : (s.bumpCandidacy).quiet = s.quiet := rfl
@[simp] theorem State.bumpCandidacy_loader (s : State) : (s.bumpCandidacy).loader = s.loader := rfl
@[simp] theorem State.bumpCandidacy_stamp (s : State) : (s.bumpCandidacy).stamp = s.stamp := rfl
@[simp] theorem State.bumpCandidacy_resetting (s : State) : (s.bumpCandidacy).resetting = s.resetting := rfl
@[simp] theorem State.bumpCandidacy_nextCandidacy (s : State) : (s.bumpCandidacy).nextCandidacy = s.nextCandidacy + 1 := rfl
@[simp] theorem State.bumpCandidacy_freeIndex (s : State) : (s.bumpCandidacy).freeIndex = s.freeIndex := rfl
@[simp] theorem State.bumpCandidacy_pending (s : State) : (s.bumpCandidacy).pending = s.pending := rfl

@[simp] theorem State.drawn_ports (s : State) : (s.drawn).ports = s.ports := rfl
@[simp] theorem State.drawn_windows (s : State) : (s.drawn).windows = s.windows := rfl
@[simp] theorem State.drawn_routes (s : State) : (s.drawn).routes = s.routes := rfl
@[simp] theorem State.drawn_rx (s : State) : (s.drawn).rx = s.rx := rfl
@[simp] theorem State.drawn_tx (s : State) : (s.drawn).tx = s.tx := rfl
@[simp] theorem State.drawn_slots (s : State) : (s.drawn).slots = s.slots := rfl
@[simp] theorem State.drawn_line (s : State) : (s.drawn).line = s.line := rfl
@[simp] theorem State.drawn_detector (s : State) : (s.drawn).detector = s.detector := rfl
@[simp] theorem State.drawn_quiet (s : State) : (s.drawn).quiet = s.quiet := rfl
@[simp] theorem State.drawn_loader (s : State) : (s.drawn).loader = s.loader := rfl
@[simp] theorem State.drawn_stamp (s : State) : (s.drawn).stamp = s.stamp := rfl
@[simp] theorem State.drawn_resetting (s : State) : (s.drawn).resetting = s.resetting := rfl
@[simp] theorem State.drawn_nextCandidacy (s : State) : (s.drawn).nextCandidacy = s.nextCandidacy := rfl
@[simp] theorem State.drawn_freeIndex (s : State) : (s.drawn).freeIndex = s.freeIndex + 1 := rfl
@[simp] theorem State.drawn_pending (s : State) : (s.drawn).pending = s.pending := rfl

@[simp] theorem State.present_ports (s : State) (p : Port) (c : WakeCause) (t : Stamp) : (present p c t s).ports = s.ports.set p ((s.unit p).takeCause c t) := rfl
@[simp] theorem State.present_windows (s : State) (p : Port) (c : WakeCause) (t : Stamp) : (present p c t s).windows = s.windows := rfl
@[simp] theorem State.present_routes (s : State) (p : Port) (c : WakeCause) (t : Stamp) : (present p c t s).routes = s.routes := rfl
@[simp] theorem State.present_rx (s : State) (p : Port) (c : WakeCause) (t : Stamp) : (present p c t s).rx = s.rx := rfl
@[simp] theorem State.present_tx (s : State) (p : Port) (c : WakeCause) (t : Stamp) : (present p c t s).tx = s.tx := rfl
@[simp] theorem State.present_slots (s : State) (p : Port) (c : WakeCause) (t : Stamp) : (present p c t s).slots = s.slots := rfl
@[simp] theorem State.present_line (s : State) (p : Port) (c : WakeCause) (t : Stamp) : (present p c t s).line = s.line := rfl
@[simp] theorem State.present_detector (s : State) (p : Port) (c : WakeCause) (t : Stamp) : (present p c t s).detector = s.detector := rfl
@[simp] theorem State.present_quiet (s : State) (p : Port) (c : WakeCause) (t : Stamp) : (present p c t s).quiet = s.quiet := rfl
@[simp] theorem State.present_loader (s : State) (p : Port) (c : WakeCause) (t : Stamp) : (present p c t s).loader = s.loader := rfl
@[simp] theorem State.present_stamp (s : State) (p : Port) (c : WakeCause) (t : Stamp) : (present p c t s).stamp = s.stamp := rfl
@[simp] theorem State.present_resetting (s : State) (p : Port) (c : WakeCause) (t : Stamp) : (present p c t s).resetting = s.resetting := rfl
@[simp] theorem State.present_nextCandidacy (s : State) (p : Port) (c : WakeCause) (t : Stamp) : (present p c t s).nextCandidacy = s.nextCandidacy := rfl
@[simp] theorem State.present_freeIndex (s : State) (p : Port) (c : WakeCause) (t : Stamp) : (present p c t s).freeIndex = s.freeIndex := rfl
@[simp] theorem State.present_pending (s : State) (p : Port) (c : WakeCause) (t : Stamp) : (present p c t s).pending = s.pending := rfl

@[simp] theorem State.presentLine_ports (s : State) : (presentLine s).ports = s.ports.mapPort (fun _ u => u.takeCause .line s.stamp) := rfl
@[simp] theorem State.presentLine_windows (s : State) : (presentLine s).windows = s.windows := rfl
@[simp] theorem State.presentLine_routes (s : State) : (presentLine s).routes = s.routes := rfl
@[simp] theorem State.presentLine_rx (s : State) : (presentLine s).rx = s.rx := rfl
@[simp] theorem State.presentLine_tx (s : State) : (presentLine s).tx = s.tx := rfl
@[simp] theorem State.presentLine_slots (s : State) : (presentLine s).slots = s.slots := rfl
@[simp] theorem State.presentLine_line (s : State) : (presentLine s).line = s.line := rfl
@[simp] theorem State.presentLine_detector (s : State) : (presentLine s).detector = s.detector := rfl
@[simp] theorem State.presentLine_quiet (s : State) : (presentLine s).quiet = s.quiet := rfl
@[simp] theorem State.presentLine_loader (s : State) : (presentLine s).loader = s.loader := rfl
@[simp] theorem State.presentLine_stamp (s : State) : (presentLine s).stamp = s.stamp := rfl
@[simp] theorem State.presentLine_resetting (s : State) : (presentLine s).resetting = s.resetting := rfl
@[simp] theorem State.presentLine_nextCandidacy (s : State) : (presentLine s).nextCandidacy = s.nextCandidacy := rfl
@[simp] theorem State.presentLine_freeIndex (s : State) : (presentLine s).freeIndex = s.freeIndex := rfl
@[simp] theorem State.presentLine_pending (s : State) : (presentLine s).pending = s.pending := rfl

theorem State.unit_eq (s : State) (p : Port) : s.ports.get p = s.unit p := rfl

@[simp] theorem State.heard_ports (s : State) (p : Port) (n : Nat) :
    (s.heard p n).ports = (s.shiftOut p n).ports.set p ((s.shiftOut p n).unit p).restartPresence := rfl
@[simp] theorem State.heard_windows (s : State) (p : Port) (n : Nat) : (s.heard p n).windows = s.windows := rfl
@[simp] theorem State.heard_routes (s : State) (p : Port) (n : Nat) : (s.heard p n).routes = s.routes := rfl
@[simp] theorem State.heard_rx (s : State) (p : Port) (n : Nat) : (s.heard p n).rx = s.rx := rfl
@[simp] theorem State.heard_tx (s : State) (p : Port) (n : Nat) : (s.heard p n).tx = s.tx := rfl
@[simp] theorem State.heard_slots (s : State) (p : Port) (n : Nat) : (s.heard p n).slots = s.slots := rfl
@[simp] theorem State.heard_line (s : State) (p : Port) (n : Nat) : (s.heard p n).line = s.line := rfl
@[simp] theorem State.heard_detector (s : State) (p : Port) (n : Nat) : (s.heard p n).detector = s.detector := rfl
@[simp] theorem State.heard_quiet (s : State) (p : Port) (n : Nat) : (s.heard p n).quiet = s.quiet := rfl
@[simp] theorem State.heard_loader (s : State) (p : Port) (n : Nat) : (s.heard p n).loader = s.loader := rfl
@[simp] theorem State.heard_stamp (s : State) (p : Port) (n : Nat) : (s.heard p n).stamp = s.stamp := rfl
@[simp] theorem State.heard_resetting (s : State) (p : Port) (n : Nat) : (s.heard p n).resetting = s.resetting := rfl
@[simp] theorem State.heard_nextCandidacy (s : State) (p : Port) (n : Nat) : (s.heard p n).nextCandidacy = s.nextCandidacy := rfl
@[simp] theorem State.heard_freeIndex (s : State) (p : Port) (n : Nat) : (s.heard p n).freeIndex = s.freeIndex := rfl
@[simp] theorem State.heard_pending (s : State) (p : Port) (n : Nat) : (s.heard p n).pending = s.pending := rfl

@[simp] theorem State.setRx_unit (s : State) (p : Port) (q : RxQueue) (r : Port) : (s.setRx p q).unit r = s.unit r := rfl
@[simp] theorem State.setTx_unit (s : State) (p : Port) (q : TxQueue) (r : Port) : (s.setTx p q).unit r = s.unit r := rfl
@[simp] theorem State.setSlot_unit (s : State) (n : Nat) (x : Option Slot) (r : Port) : (s.setSlot n x).unit r = s.unit r := rfl
@[simp] theorem State.modLine_unit (s : State) (f : LineUnit → LineUnit) (r : Port) : (s.modLine f).unit r = s.unit r := rfl
@[simp] theorem State.bumpCandidacy_unit (s : State) (r : Port) : (s.bumpCandidacy).unit r = s.unit r := rfl
@[simp] theorem State.drawn_unit (s : State) (r : Port) : (s.drawn).unit r = s.unit r := rfl

@[simp] theorem State.setUnit_unit_same (s : State) (p : Port) (u : PortUnit) :
    (s.setUnit p u).unit p = u := by
  cases p <;> rfl
theorem State.setUnit_unit_ne (s : State) (p : Port) (u : PortUnit) {q : Port} (h : q ≠ p) :
    (s.setUnit p u).unit q = s.unit q := by
  cases p <;> cases q <;> first | rfl | exact absurd rfl h
@[simp] theorem State.modUnit_unit_same (s : State) (p : Port) (f : PortUnit → PortUnit) :
    (s.modUnit p f).unit p = f (s.unit p) := by
  cases p <;> rfl
theorem State.modUnit_unit_ne (s : State) (p : Port) (f : PortUnit → PortUnit) {q : Port} (h : q ≠ p) :
    (s.modUnit p f).unit q = s.unit q := by
  cases p <;> cases q <;> first | rfl | exact absurd rfl h
@[simp] theorem State.raise_unit_same (s : State) (p : Port) (f : EventFlag) :
    (s.raise p f).unit p = (s.unit p).raise f := by
  cases p <;> rfl
theorem State.raise_unit_ne (s : State) (p : Port) (f : EventFlag) {q : Port} (h : q ≠ p) :
    (s.raise p f).unit q = s.unit q := by
  cases p <;> cases q <;> first | rfl | exact absurd rfl h
@[simp] theorem State.shiftOut_unit_same (s : State) (p : Port) (n : Nat) :
    (s.shiftOut p n).unit p = { s.unit p with sdo := (s.unit p).holder.clockedOut n } := by
  cases p <;> rfl
theorem State.shiftOut_unit_ne (s : State) (p : Port) (n : Nat) {q : Port} (h : q ≠ p) :
    (s.shiftOut p n).unit q = s.unit q := by
  cases p <;> cases q <;> first | rfl | exact absurd rfl h
@[simp] theorem State.setHolder_unit_same (s : State) (p : Port) (r : Response) :
    (s.setHolder p r).unit p = { s.unit p with holder := r } := by
  cases p <;> rfl
theorem State.setHolder_unit_ne (s : State) (p : Port) (r : Response) {q : Port} (h : q ≠ p) :
    (s.setHolder p r).unit q = s.unit q := by
  cases p <;> cases q <;> first | rfl | exact absurd rfl h
@[simp] theorem State.present_unit_same (s : State) (p : Port) (c : WakeCause) (t : Stamp) :
    (present p c t s).unit p = (s.unit p).takeCause c t := by
  cases p <;> rfl
theorem State.present_unit_ne (s : State) (p : Port) (c : WakeCause) (t : Stamp) {q : Port} (h : q ≠ p) :
    (present p c t s).unit q = s.unit q := by
  cases p <;> cases q <;> first | rfl | exact absurd rfl h
@[simp] theorem State.heard_unit_same (s : State) (p : Port) (n : Nat) :
    (s.heard p n).unit p = PortUnit.restartPresence { s.unit p with sdo := (s.unit p).holder.clockedOut n } := by
  cases p <;> rfl
theorem State.heard_unit_ne (s : State) (p : Port) (n : Nat) {q : Port} (h : q ≠ p) :
    (s.heard p n).unit q = s.unit q := by
  cases p <;> cases q <;> first | rfl | exact absurd rfl h
@[simp] theorem State.raiseAll_unit (s : State) (f : EventFlag) (q : Port) : (s.raiseAll f).unit q = (s.unit q).raise f := by
  cases q <;> rfl
@[simp] theorem State.raiseActive_unit (s : State) (f : EventFlag) (q : Port) : (s.raiseActive f).unit q = if (s.unit q).state = .active then (s.unit q).raise f else s.unit q := by
  cases q <;> rfl
@[simp] theorem State.raiseActiveExcept_unit (s : State) (p : Port) (f : EventFlag) (q : Port) : (s.raiseActiveExcept p f).unit q = if q ≠ p ∧ (s.unit q).state = .active then (s.unit q).raise f else s.unit q := by
  cases q <;> rfl
@[simp] theorem State.presentLine_unit (s : State) (q : Port) : (presentLine s).unit q = (s.unit q).takeCause .line s.stamp := by
  cases q <;> rfl

@[simp] theorem LineUnit.abandonReception_state (u : LineUnit) : u.abandonReception.state = u.state := rfl
@[simp] theorem LineUnit.abandonReception_rateMode (u : LineUnit) : u.abandonReception.rateMode = u.rateMode := rfl
@[simp] theorem LineUnit.abandonReception_configuredRate (u : LineUnit) : u.abandonReception.configuredRate = u.configuredRate := rfl
@[simp] theorem LineUnit.abandonReception_trialRate (u : LineUnit) : u.abandonReception.trialRate = u.trialRate := rfl
@[simp] theorem LineUnit.abandonReception_dwellTimer (u : LineUnit) : u.abandonReception.dwellTimer = u.dwellTimer := rfl
@[simp] theorem LineUnit.abandonReception_cleanCount (u : LineUnit) : u.abandonReception.cleanCount = u.cleanCount := rfl
@[simp] theorem LineUnit.abandonReception_errorCount (u : LineUnit) : u.abandonReception.errorCount = u.errorCount := rfl
@[simp] theorem LineUnit.abandonReception_silenceTime (u : LineUnit) : u.abandonReception.silenceTime = u.silenceTime := rfl
@[simp] theorem LineUnit.abandonReception_silenceTimer (u : LineUnit) : u.abandonReception.silenceTimer = u.silenceTimer := rfl
@[simp] theorem LineUnit.abandonReception_silentFlag (u : LineUnit) : u.abandonReception.silentFlag = u.silentFlag := rfl
@[simp] theorem LineUnit.abandonReception_mode (u : LineUnit) : u.abandonReception.mode = u.mode := rfl
@[simp] theorem LineUnit.abandonReception_pendingMode (u : LineUnit) : u.abandonReception.pendingMode = u.pendingMode := rfl
@[simp] theorem LineUnit.abandonReception_inFlight (u : LineUnit) : u.abandonReception.inFlight = u.inFlight := rfl
@[simp] theorem LineUnit.abandonReception_lease (u : LineUnit) : u.abandonReception.lease = u.lease := rfl
@[simp] theorem LineUnit.abandonReception_receiverPeriod (u : LineUnit) :
    u.abandonReception.receiverPeriod = u.receiverPeriod + 1 := rfl

end Sys2Proof.Machine
end

