-- ==== Sys2Proof/Laws/Exchange.lean ====
section
/-! SUPPORT. The exchange of a command and its response: what a port row does in each of the cases of R151, and what every
port row keeps. -/

namespace Sys2Proof.Machine

/-! ## Outside and during a device reset -/

theorem State.Active.ready {s : State} {p : Port} (h : s.Active p) : s.Ready p := h.1

theorem whenLive_of_none (f : State → State) {s : State} (h : s.resetting = none) : whenLive f s = f s := by
  simp [whenLive, State.live, h]

theorem whenLive_of_some (f : State → State) {s : State} (h : s.resetting ≠ none) : whenLive f s = s := by
  cases hr : s.resetting with
  | none => exact absurd hr h
  | some k => simp [whenLive, State.live, hr]

/-! ## A chip select that is a transaction, and one that is not -/

/-- Outside a device reset a chip select of a port without a stale one is the transaction. -/
theorem whenSelected_of_listens (f : State → State) {p : Port} {s : State} (h : s.Listens p) :
    whenSelected p f s = f s := by
  simp [whenSelected, whenLive, State.live, h.1, h.2]

/-- The chip select that was under way when the device reset ended only ends. -/
theorem whenSelected_of_stale (f : State → State) {p : Port} {s : State} (hr : s.resetting = none)
    (h : (s.unit p).staleSelect = true) :
    whenSelected p f s = s.modUnit p (fun u => { u with staleSelect := false }) := by
  simp [whenSelected, whenLive, State.live, hr, h]

/-- During a device reset a chip select is none. -/
theorem whenSelected_of_some (f : State → State) (p : Port) {s : State} (h : s.resetting ≠ none) :
    whenSelected p f s = s :=
  whenLive_of_some _ h

/-- What the transaction keeps, and the end of a stale chip select keeps, every chip select keeps. -/
theorem whenSelected_keeps {I : State → Prop} {p : Port} {f : State → State} {s : State} (hI : I s)
    (hstale : ∀ t, I t → I (t.modUnit p (fun u => { u with staleSelect := false })))
    (hf : s.Listens p → I (f s)) : I (whenSelected p f s) := by
  unfold whenSelected whenLive
  split
  · next hlive =>
    have hr : s.resetting = none := by simpa [State.live] using hlive
    dsimp only
    split
    · exact hstale _ hI
    · next h => exact hf ⟨hr, by simpa using h⟩
  · exact hI

/-! ## What `heard` leaves -/

theorem PortUnit.restartPresence_active {u : PortUnit} (h : u.state = .active) : u.restartPresence = u.startPresence := by
  simp [PortUnit.restartPresence, h]

theorem PortUnit.restartPresence_other {u : PortUnit} (h : u.state ≠ .active) : u.restartPresence = u := by
  simp [PortUnit.restartPresence, h]

@[simp] theorem PortUnit.restartPresence_state (u : PortUnit) : u.restartPresence.state = u.state := by
  unfold PortUnit.restartPresence; split <;> rfl

@[simp] theorem State.heard_unit_state (s : State) (p q : Port) (n : Nat) :
    ((s.heard p n).unit q).state = (s.unit q).state := by
  by_cases h : q = p
  · subst h; simp
  · rw [State.heard_unit_ne s p n h]

@[simp] theorem PortUnit.restartPresence_detachCause (u : PortUnit) : u.restartPresence.detachCause = u.detachCause := by
  unfold PortUnit.restartPresence; split <;> rfl

@[simp] theorem State.heard_unit_detachCause (s : State) (p q : Port) (n : Nat) :
    ((s.heard p n).unit q).detachCause = (s.unit q).detachCause := by
  by_cases h : q = p
  · subst h; simp
  · rw [State.heard_unit_ne s p n h]

@[simp] theorem PortUnit.restartPresence_holder (u : PortUnit) : u.restartPresence.holder = u.holder := by
  unfold PortUnit.restartPresence; split <;> rfl

@[simp] theorem State.heard_unit_holder (s : State) (p q : Port) (n : Nat) :
    ((s.heard p n).unit q).holder = (s.unit q).holder := by
  by_cases h : q = p
  · subst h; simp
  · rw [State.heard_unit_ne s p n h]

@[simp] theorem PortUnit.restartPresence_flags (u : PortUnit) : u.restartPresence.flags = u.flags := by
  unfold PortUnit.restartPresence; split <;> rfl

@[simp] theorem State.heard_unit_flags (s : State) (p q : Port) (n : Nat) :
    ((s.heard p n).unit q).flags = (s.unit q).flags := by
  by_cases h : q = p
  · subst h; simp
  · rw [State.heard_unit_ne s p n h]

@[simp] theorem PortUnit.restartPresence_mask (u : PortUnit) : u.restartPresence.mask = u.mask := by
  unfold PortUnit.restartPresence; split <;> rfl

@[simp] theorem State.heard_unit_mask (s : State) (p q : Port) (n : Nat) :
    ((s.heard p n).unit q).mask = (s.unit q).mask := by
  by_cases h : q = p
  · subst h; simp
  · rw [State.heard_unit_ne s p n h]

@[simp] theorem PortUnit.restartPresence_presenceInterval (u : PortUnit) : u.restartPresence.presenceInterval = u.presenceInterval := by
  unfold PortUnit.restartPresence; split <;> rfl

@[simp] theorem State.heard_unit_presenceInterval (s : State) (p q : Port) (n : Nat) :
    ((s.heard p n).unit q).presenceInterval = (s.unit q).presenceInterval := by
  by_cases h : q = p
  · subst h; simp
  · rw [State.heard_unit_ne s p n h]

@[simp] theorem PortUnit.restartPresence_wakeSet (u : PortUnit) : u.restartPresence.wakeSet = u.wakeSet := by
  unfold PortUnit.restartPresence; split <;> rfl

@[simp] theorem State.heard_unit_wakeSet (s : State) (p q : Port) (n : Nat) :
    ((s.heard p n).unit q).wakeSet = (s.unit q).wakeSet := by
  by_cases h : q = p
  · subst h; simp
  · rw [State.heard_unit_ne s p n h]

@[simp] theorem PortUnit.restartPresence_wakePeriod (u : PortUnit) : u.restartPresence.wakePeriod = u.wakePeriod := by
  unfold PortUnit.restartPresence; split <;> rfl

@[simp] theorem State.heard_unit_wakePeriod (s : State) (p q : Port) (n : Nat) :
    ((s.heard p n).unit q).wakePeriod = (s.unit q).wakePeriod := by
  by_cases h : q = p
  · subst h; simp
  · rw [State.heard_unit_ne s p n h]

@[simp] theorem PortUnit.restartPresence_wakeTimer (u : PortUnit) : u.restartPresence.wakeTimer = u.wakeTimer := by
  unfold PortUnit.restartPresence; split <;> rfl

@[simp] theorem State.heard_unit_wakeTimer (s : State) (p q : Port) (n : Nat) :
    ((s.heard p n).unit q).wakeTimer = (s.unit q).wakeTimer := by
  by_cases h : q = p
  · subst h; simp
  · rw [State.heard_unit_ne s p n h]

@[simp] theorem PortUnit.restartPresence_ackTimer (u : PortUnit) : u.restartPresence.ackTimer = u.ackTimer := by
  unfold PortUnit.restartPresence; split <;> rfl

@[simp] theorem State.heard_unit_ackTimer (s : State) (p q : Port) (n : Nat) :
    ((s.heard p n).unit q).ackTimer = (s.unit q).ackTimer := by
  by_cases h : q = p
  · subst h; simp
  · rw [State.heard_unit_ne s p n h]

@[simp] theorem PortUnit.restartPresence_wakeRecord (u : PortUnit) : u.restartPresence.wakeRecord = u.wakeRecord := by
  unfold PortUnit.restartPresence; split <;> rfl

@[simp] theorem State.heard_unit_wakeRecord (s : State) (p q : Port) (n : Nat) :
    ((s.heard p n).unit q).wakeRecord = (s.unit q).wakeRecord := by
  by_cases h : q = p
  · subst h; simp
  · rw [State.heard_unit_ne s p n h]

@[simp] theorem PortUnit.restartPresence_defaults (u : PortUnit) : u.restartPresence.defaults = u.defaults := by
  unfold PortUnit.restartPresence; split <;> rfl

@[simp] theorem State.heard_unit_defaults (s : State) (p q : Port) (n : Nat) :
    ((s.heard p n).unit q).defaults = (s.unit q).defaults := by
  by_cases h : q = p
  · subst h; simp
  · rw [State.heard_unit_ne s p n h]

@[simp] theorem PortUnit.restartPresence_sdo (u : PortUnit) : u.restartPresence.sdo = u.sdo := by
  unfold PortUnit.restartPresence; split <;> rfl

@[simp] theorem State.heard_unit_sdo (s : State) (p : Port) (n : Nat) :
    ((s.heard p n).unit p).sdo = (s.unit p).holder.clockedOut n := by simp

theorem State.heard_unit_presenceTimer (s : State) (p : Port) (n : Nat) :
    ((s.heard p n).unit p).presenceTimer =
      if (s.unit p).state = .active then
        if (s.unit p).presenceInterval = 0 then none else some (s.unit p).presenceInterval
      else (s.unit p).presenceTimer := by
  rw [State.heard_unit_same]
  by_cases h : (s.unit p).state = .active
  · simp [PortUnit.restartPresence, PortUnit.startPresence, h]
  · simp [PortUnit.restartPresence, h]

@[simp] theorem PortUnit.restartPresence_staleSelect (u : PortUnit) : u.restartPresence.staleSelect = u.staleSelect := by
  unfold PortUnit.restartPresence; split <;> rfl

@[simp] theorem State.heard_unit_staleSelect (s : State) (p q : Port) (n : Nat) :
    ((s.heard p n).unit q).staleSelect = (s.unit q).staleSelect := by
  by_cases h : q = p
  · subst h; simp
  · rw [State.heard_unit_ne s p n h]

theorem State.heard_ready {s : State} {q : Port} (h : s.Ready q) (p : Port) (n : Nat) : (s.heard p n).Ready q :=
  ⟨⟨h.1.1, by simpa using h.1.2⟩, h.2⟩

theorem State.heard_active {s : State} {p : Port} (h : s.Active p) (n : Nat) : (s.heard p n).Active p :=
  ⟨State.heard_ready h.1 p n, by simpa using h.2⟩

@[simp] theorem State.heard_holds (s : State) (p q : Port) (n : Nat) : (s.heard p n).holds q = s.holds q := rfl

@[simp] theorem State.heard_occupancy (s : State) (p q : Port) (n : Nat) :
    (s.heard p n).occupancy q = s.occupancy q := rfl

@[simp] theorem State.heard_slot (s : State) (p : Port) (n m : Nat) : (s.heard p n).slot m = s.slot m := rfl

@[simp] theorem State.heard_route (s : State) (p : Port) (n m : Nat) : (s.heard p n).route m = s.route m := rfl

@[simp] theorem State.heard_headInFlight (s : State) (p q : Port) (n : Nat) :
    (s.heard p n).headInFlight q = s.headInFlight q := rfl

@[simp] theorem State.heard_dueInFlight (s : State) (p : Port) (n m : Nat) :
    (s.heard p n).dueInFlight m = s.dueInFlight m := rfl

/-! ## The cases of R151 -/

/-- A command that passes the port unit's checks reaches its block. -/
theorem portCommand_taken {c : Command} {p : Port} {rest ps : List Byte} {body : List Byte → State → Reply} {s : State}
    (hs : s.Ready p) (hps : parameters c.frame rest = some ps) (hst : stateCheck c (s.unit p).state = none) :
    portCommand c p rest body s =
      (body ps (s.found p rest)).1.setHolder p (body ps (s.found p rest)).2 := by
  simp [portCommand, carried, whenSelected_of_listens _ hs.1, hs.2, hps, hst, State.found]

/-- A command that an ACTIVE port may give reaches its block. -/
theorem portCommand_active {c : Command} {p : Port} {rest ps : List Byte} {body : List Byte → State → Reply} {s : State}
    (hs : s.Active p) (hps : parameters c.frame rest = some ps) (hst : stateCheck c .active = none) :
    portCommand c p rest body s =
      (body ps (s.found p rest)).1.setHolder p (body ps (s.found p rest)).2 :=
  portCommand_taken hs.1 hps (by rw [hs.2]; exact hst)

/-- While the loader is LOADING a command is refused NOT_READY. -/
theorem portCommand_notReady {c : Command} {p : Port} {rest : List Byte} {body : List Byte → State → Reply} {s : State}
    (hr : s.Listens p) (hl : s.loader.state = .loading) :
    portCommand c p rest body s = s.answered p rest ⟨.notReady, []⟩ := by
  simp [portCommand, carried, whenSelected_of_listens _ hr, hl, refuse, State.answered, State.found]

/-- A malformed envelope is refused FORMAT. -/
theorem portCommand_format {c : Command} {p : Port} {rest : List Byte} {body : List Byte → State → Reply} {s : State}
    (hs : s.Ready p) (hps : parameters c.frame rest = none) :
    portCommand c p rest body s = s.answered p rest ⟨.format, []⟩ := by
  simp [portCommand, carried, whenSelected_of_listens _ hs.1, hs.2, hps, refuse, State.answered, State.found]

/-- A command outside the list of the port's state is refused by the state check. -/
theorem portCommand_wrongState {c : Command} {p : Port} {rest ps : List Byte} {body : List Byte → State → Reply}
    {s : State} {r : ResultCode} (hs : s.Ready p) (hps : parameters c.frame rest = some ps)
    (hst : stateCheck c (s.unit p).state = some r) :
    portCommand c p rest body s = s.answered p rest ⟨r, []⟩ := by
  simp [portCommand, carried, whenSelected_of_listens _ hs.1, hs.2, hps, hst, refuse, State.answered, State.found]

/-- During a device reset a transaction is none. -/
theorem portCommand_reset {c : Command} {p : Port} {rest : List Byte} {body : List Byte → State → Reply} {s : State}
    (h : s.resetting ≠ none) : portCommand c p rest body s = s := by
  unfold portCommand carried
  exact whenSelected_of_some _ p h

/-- The chip select that was under way when the device reset ended carries no command. -/
theorem portCommand_stale {c : Command} {p : Port} {rest : List Byte} {body : List Byte → State → Reply} {s : State}
    (hr : s.resetting = none) (h : (s.unit p).staleSelect = true) :
    portCommand c p rest body s = s.modUnit p (fun u => { u with staleSelect := false }) := by
  unfold portCommand carried
  exact whenSelected_of_stale _ hr h

/-- Whatever a block's answer keeps, the command keeps, when shifting the holder out, restarting the presence timer,
replacing the holder and the end of a stale chip select keep it too. -/
theorem portCommand_keeps {I : State → Prop} {c : Command} {p : Port} {rest : List Byte}
    {body : List Byte → State → Reply} {s : State} (hI : I s) (hheard : ∀ t n, I t → I (t.heard p n))
    (hset : ∀ t r, I t → I (t.setHolder p r))
    (hstale : ∀ t, I t → I (t.modUnit p (fun u => { u with staleSelect := false })))
    (hbody : ∀ ps t, I t → t.Ready p → stateCheck c (t.unit p).state = none → I (body ps t).1) :
    I (portCommand c p rest body s) := by
  unfold portCommand carried
  refine whenSelected_keeps hI hstale fun hlisten => ?_
  dsimp only
  split
  · exact hset _ _ (hheard _ _ hI)
  · next hload =>
    have hready : s.loader.state = .ready := by
      cases h : s.loader.state with
      | ready => rfl
      | loading => exact absurd h hload
    split
    · exact hset _ _ (hheard _ _ hI)
    · split
      · exact hset _ _ (hheard _ _ hI)
      · next hst =>
        exact hset _ _ (hbody _ _ (hheard _ _ hI) (State.heard_ready ⟨hlisten, hready⟩ p _) (by simpa using hst))

/-! ## The state a command finds -/

@[simp] theorem State.found_windows (s : State) (p : Port) (rest : List Byte) : (s.found p rest).windows = s.windows := rfl
@[simp] theorem State.found_routes (s : State) (p : Port) (rest : List Byte) : (s.found p rest).routes = s.routes := rfl
@[simp] theorem State.found_rx (s : State) (p : Port) (rest : List Byte) : (s.found p rest).rx = s.rx := rfl
@[simp] theorem State.found_tx (s : State) (p : Port) (rest : List Byte) : (s.found p rest).tx = s.tx := rfl
@[simp] theorem State.found_slots (s : State) (p : Port) (rest : List Byte) : (s.found p rest).slots = s.slots := rfl
@[simp] theorem State.found_line (s : State) (p : Port) (rest : List Byte) : (s.found p rest).line = s.line := rfl
@[simp] theorem State.found_detector (s : State) (p : Port) (rest : List Byte) : (s.found p rest).detector = s.detector := rfl
@[simp] theorem State.found_quiet (s : State) (p : Port) (rest : List Byte) : (s.found p rest).quiet = s.quiet := rfl
@[simp] theorem State.found_loader (s : State) (p : Port) (rest : List Byte) : (s.found p rest).loader = s.loader := rfl
@[simp] theorem State.found_stamp (s : State) (p : Port) (rest : List Byte) : (s.found p rest).stamp = s.stamp := rfl
@[simp] theorem State.found_resetting (s : State) (p : Port) (rest : List Byte) : (s.found p rest).resetting = s.resetting := rfl
@[simp] theorem State.found_nextCandidacy (s : State) (p : Port) (rest : List Byte) : (s.found p rest).nextCandidacy = s.nextCandidacy := rfl
@[simp] theorem State.found_freeIndex (s : State) (p : Port) (rest : List Byte) : (s.found p rest).freeIndex = s.freeIndex := rfl
@[simp] theorem State.found_pending (s : State) (p : Port) (rest : List Byte) : (s.found p rest).pending = s.pending := rfl
@[simp] theorem State.found_slot (s : State) (p : Port) (rest : List Byte) (x : Nat) :
    (s.found p rest).slot x = s.slot x := rfl
@[simp] theorem State.found_route (s : State) (p : Port) (rest : List Byte) (x : Nat) :
    (s.found p rest).route x = s.route x := rfl
@[simp] theorem State.found_holds (s : State) (p : Port) (rest : List Byte) (x : Port) :
    (s.found p rest).holds x = s.holds x := rfl
@[simp] theorem State.found_headInFlight (s : State) (p : Port) (rest : List Byte) (x : Port) :
    (s.found p rest).headInFlight x = s.headInFlight x := rfl
@[simp] theorem State.found_dueInFlight (s : State) (p : Port) (rest : List Byte) (x : Nat) :
    (s.found p rest).dueInFlight x = s.dueInFlight x := rfl
@[simp] theorem State.found_routeCount (s : State) (p : Port) (rest : List Byte) (x : Port) :
    (s.found p rest).routeCount x = s.routeCount x := rfl
@[simp] theorem State.found_occupancy (s : State) (p : Port) (rest : List Byte) (x : Port) :
    (s.found p rest).occupancy x = s.occupancy x := rfl
@[simp] theorem State.found_slotOfLabel (s : State) (p : Port) (rest : List Byte) (x : Label) :
    (s.found p rest).slotOfLabel x = s.slotOfLabel x := rfl
@[simp] theorem State.found_selectiveCheck (s : State) (p : Port) (rest : List Byte) (x : Port) :
    (s.found p rest).selectiveCheck x = s.selectiveCheck x := rfl
@[simp] theorem State.found_holdsWakeRecord (s : State) (p : Port) (rest : List Byte) (x : Port) :
    (s.found p rest).holdsWakeRecord x = s.holdsWakeRecord x := rfl
@[simp] theorem State.found_source (s : State) (p : Port) (rest : List Byte) : (s.found p rest).source = s.source := rfl
@[simp] theorem State.found_freeCount (s : State) (p : Port) (rest : List Byte) : (s.found p rest).freeCount = s.freeCount := rfl
@[simp] theorem State.found_outstanding (s : State) (p : Port) (rest : List Byte) : (s.found p rest).outstanding = s.outstanding := rfl
@[simp] theorem State.found_unit_state (s : State) (p q : Port) (rest : List Byte) :
    ((s.found p rest).unit q).state = (s.unit q).state := by simp [State.found]
@[simp] theorem State.found_unit_detachCause (s : State) (p q : Port) (rest : List Byte) :
    ((s.found p rest).unit q).detachCause = (s.unit q).detachCause := by simp [State.found]
@[simp] theorem State.found_unit_holder (s : State) (p q : Port) (rest : List Byte) :
    ((s.found p rest).unit q).holder = (s.unit q).holder := by simp [State.found]
@[simp] theorem State.found_unit_flags (s : State) (p q : Port) (rest : List Byte) :
    ((s.found p rest).unit q).flags = (s.unit q).flags := by simp [State.found]
@[simp] theorem State.found_unit_mask (s : State) (p q : Port) (rest : List Byte) :
    ((s.found p rest).unit q).mask = (s.unit q).mask := by simp [State.found]
@[simp] theorem State.found_unit_presenceInterval (s : State) (p q : Port) (rest : List Byte) :
    ((s.found p rest).unit q).presenceInterval = (s.unit q).presenceInterval := by simp [State.found]
@[simp] theorem State.found_unit_wakeSet (s : State) (p q : Port) (rest : List Byte) :
    ((s.found p rest).unit q).wakeSet = (s.unit q).wakeSet := by simp [State.found]
@[simp] theorem State.found_unit_wakePeriod (s : State) (p q : Port) (rest : List Byte) :
    ((s.found p rest).unit q).wakePeriod = (s.unit q).wakePeriod := by simp [State.found]
@[simp] theorem State.found_unit_wakeTimer (s : State) (p q : Port) (rest : List Byte) :
    ((s.found p rest).unit q).wakeTimer = (s.unit q).wakeTimer := by simp [State.found]
@[simp] theorem State.found_unit_ackTimer (s : State) (p q : Port) (rest : List Byte) :
    ((s.found p rest).unit q).ackTimer = (s.unit q).ackTimer := by simp [State.found]
@[simp] theorem State.found_unit_wakeRecord (s : State) (p q : Port) (rest : List Byte) :
    ((s.found p rest).unit q).wakeRecord = (s.unit q).wakeRecord := by simp [State.found]
@[simp] theorem State.found_unit_staleSelect (s : State) (p q : Port) (rest : List Byte) :
    ((s.found p rest).unit q).staleSelect = (s.unit q).staleSelect := by simp [State.found]
@[simp] theorem State.found_unit_defaults (s : State) (p q : Port) (rest : List Byte) :
    ((s.found p rest).unit q).defaults = (s.unit q).defaults := by simp [State.found]

theorem State.found_unit_ne (s : State) (p : Port) (rest : List Byte) {q : Port} (h : q ≠ p) :
    (s.found p rest).unit q = s.unit q := by simp [State.found, State.heard_unit_ne s p _ h]

/-- A command of an ACTIVE port with the parameters `ps`, of the length the command requires, reaches its block. -/
theorem portCommand_activeIn {c : Command} {p : Port} {ps filler : List Byte} {body : List Byte → State → Reply}
    {s : State} (hs : s.Active p) (hlen : ps.length < 256) (hok : c.frame.accepts ps = true)
    (hst : stateCheck c .active = none) :
    portCommand c p (clockedIn ps filler) body s =
      (body ps (s.found p (clockedIn ps filler))).1.setHolder p (body ps (s.found p (clockedIn ps filler))).2 :=
  portCommand_active hs (parameters_clockedIn filler hlen hok) hst

/-- A command that the port's state accepts, with the parameters `ps` of the length it requires, reaches its block. -/
theorem portCommand_takenIn {c : Command} {p : Port} {ps filler : List Byte} {body : List Byte → State → Reply}
    {s : State} (hs : s.Ready p) (hlen : ps.length < 256) (hok : c.frame.accepts ps = true)
    (hst : stateCheck c (s.unit p).state = none) :
    portCommand c p (clockedIn ps filler) body s =
      (body ps (s.found p (clockedIn ps filler))).1.setHolder p (body ps (s.found p (clockedIn ps filler))).2 :=
  portCommand_taken hs (parameters_clockedIn filler hlen hok) hst

end Sys2Proof.Machine
end

