-- ==== Sys2Proof/Laws/Frames.lean ====
section
/-! SUPPORT. What each shared operation leaves as it was: one lemma for each operation and each part of the state it never
writes. -/

namespace Sys2Proof.Machine

/-- What every step of an operation over the slots keeps, the operation keeps. -/
theorem forSlots_keeps {I : State → Prop} {f : Nat → State → State} (h : ∀ n t, I t → I (f n t)) {s : State} (hs : I s) :
    I (forSlots f s) := by
  unfold forSlots
  induction List.range Config.slotCount generalizing s with
  | nil => exact hs
  | cons n ns ih => exact ih (h n s hs)

/-! ## `State.modSlot` -/

@[simp] theorem State.modSlot_ports (s : State) (n : Nat) (f : Slot → Slot) : (s.modSlot n f).ports = s.ports := by
  unfold State.modSlot; split <;> rfl
@[simp] theorem State.modSlot_windows (s : State) (n : Nat) (f : Slot → Slot) : (s.modSlot n f).windows = s.windows := by
  unfold State.modSlot; split <;> rfl
@[simp] theorem State.modSlot_routes (s : State) (n : Nat) (f : Slot → Slot) : (s.modSlot n f).routes = s.routes := by
  unfold State.modSlot; split <;> rfl
@[simp] theorem State.modSlot_rx (s : State) (n : Nat) (f : Slot → Slot) : (s.modSlot n f).rx = s.rx := by
  unfold State.modSlot; split <;> rfl
@[simp] theorem State.modSlot_tx (s : State) (n : Nat) (f : Slot → Slot) : (s.modSlot n f).tx = s.tx := by
  unfold State.modSlot; split <;> rfl
@[simp] theorem State.modSlot_line (s : State) (n : Nat) (f : Slot → Slot) : (s.modSlot n f).line = s.line := by
  unfold State.modSlot; split <;> rfl
@[simp] theorem State.modSlot_detector (s : State) (n : Nat) (f : Slot → Slot) : (s.modSlot n f).detector = s.detector := by
  unfold State.modSlot; split <;> rfl
@[simp] theorem State.modSlot_quiet (s : State) (n : Nat) (f : Slot → Slot) : (s.modSlot n f).quiet = s.quiet := by
  unfold State.modSlot; split <;> rfl
@[simp] theorem State.modSlot_loader (s : State) (n : Nat) (f : Slot → Slot) : (s.modSlot n f).loader = s.loader := by
  unfold State.modSlot; split <;> rfl
@[simp] theorem State.modSlot_stamp (s : State) (n : Nat) (f : Slot → Slot) : (s.modSlot n f).stamp = s.stamp := by
  unfold State.modSlot; split <;> rfl
@[simp] theorem State.modSlot_resetting (s : State) (n : Nat) (f : Slot → Slot) : (s.modSlot n f).resetting = s.resetting := by
  unfold State.modSlot; split <;> rfl
@[simp] theorem State.modSlot_nextCandidacy (s : State) (n : Nat) (f : Slot → Slot) : (s.modSlot n f).nextCandidacy = s.nextCandidacy := by
  unfold State.modSlot; split <;> rfl
@[simp] theorem State.modSlot_freeIndex (s : State) (n : Nat) (f : Slot → Slot) : (s.modSlot n f).freeIndex = s.freeIndex := by
  unfold State.modSlot; split <;> rfl
@[simp] theorem State.modSlot_pending (s : State) (n : Nat) (f : Slot → Slot) : (s.modSlot n f).pending = s.pending := by
  unfold State.modSlot; split <;> rfl

/-! ## `cut` -/

@[simp] theorem cut_ports (src : Source) (s : State) : (cut src s).ports = s.ports := by
  simp only [cut]; repeat' split
  all_goals simp
@[simp] theorem cut_windows (src : Source) (s : State) : (cut src s).windows = s.windows := by
  simp only [cut]; repeat' split
  all_goals simp
@[simp] theorem cut_routes (src : Source) (s : State) : (cut src s).routes = s.routes := by
  simp only [cut]; repeat' split
  all_goals simp
@[simp] theorem cut_rx (src : Source) (s : State) : (cut src s).rx = s.rx := by
  simp only [cut]; repeat' split
  all_goals simp
@[simp] theorem cut_tx (src : Source) (s : State) : (cut src s).tx = s.tx := by
  simp only [cut]; repeat' split
  all_goals simp
@[simp] theorem cut_slots (src : Source) (s : State) : (cut src s).slots = s.slots := by
  simp only [cut]; repeat' split
  all_goals simp
@[simp] theorem cut_detector (src : Source) (s : State) : (cut src s).detector = s.detector := by
  simp only [cut]; repeat' split
  all_goals simp
@[simp] theorem cut_quiet (src : Source) (s : State) : (cut src s).quiet = s.quiet := by
  simp only [cut]; repeat' split
  all_goals simp
@[simp] theorem cut_loader (src : Source) (s : State) : (cut src s).loader = s.loader := by
  simp only [cut]; repeat' split
  all_goals simp
@[simp] theorem cut_stamp (src : Source) (s : State) : (cut src s).stamp = s.stamp := by
  simp only [cut]; repeat' split
  all_goals simp
@[simp] theorem cut_resetting (src : Source) (s : State) : (cut src s).resetting = s.resetting := by
  simp only [cut]; repeat' split
  all_goals simp
@[simp] theorem cut_nextCandidacy (src : Source) (s : State) : (cut src s).nextCandidacy = s.nextCandidacy := by
  simp only [cut]; repeat' split
  all_goals simp
@[simp] theorem cut_freeIndex (src : Source) (s : State) : (cut src s).freeIndex = s.freeIndex := by
  simp only [cut]; repeat' split
  all_goals simp
@[simp] theorem cut_pending (src : Source) (s : State) : (cut src s).pending = s.pending := by
  simp only [cut]; repeat' split
  all_goals simp

/-! ## `releaseLease` -/

@[simp] theorem releaseLease_windows (p : Port) (s : State) : (releaseLease p s).windows = s.windows := by
  simp only [releaseLease]; repeat' split
  all_goals simp
@[simp] theorem releaseLease_routes (p : Port) (s : State) : (releaseLease p s).routes = s.routes := by
  simp only [releaseLease]; repeat' split
  all_goals simp
@[simp] theorem releaseLease_rx (p : Port) (s : State) : (releaseLease p s).rx = s.rx := by
  simp only [releaseLease]; repeat' split
  all_goals simp
@[simp] theorem releaseLease_tx (p : Port) (s : State) : (releaseLease p s).tx = s.tx := by
  simp only [releaseLease]; repeat' split
  all_goals simp
@[simp] theorem releaseLease_slots (p : Port) (s : State) : (releaseLease p s).slots = s.slots := by
  simp only [releaseLease]; repeat' split
  all_goals simp
@[simp] theorem releaseLease_detector (p : Port) (s : State) : (releaseLease p s).detector = s.detector := by
  simp only [releaseLease]; repeat' split
  all_goals simp
@[simp] theorem releaseLease_quiet (p : Port) (s : State) : (releaseLease p s).quiet = s.quiet := by
  simp only [releaseLease]; repeat' split
  all_goals simp
@[simp] theorem releaseLease_loader (p : Port) (s : State) : (releaseLease p s).loader = s.loader := by
  simp only [releaseLease]; repeat' split
  all_goals simp
@[simp] theorem releaseLease_stamp (p : Port) (s : State) : (releaseLease p s).stamp = s.stamp := by
  simp only [releaseLease]; repeat' split
  all_goals simp
@[simp] theorem releaseLease_resetting (p : Port) (s : State) : (releaseLease p s).resetting = s.resetting := by
  simp only [releaseLease]; repeat' split
  all_goals simp
@[simp] theorem releaseLease_nextCandidacy (p : Port) (s : State) : (releaseLease p s).nextCandidacy = s.nextCandidacy := by
  simp only [releaseLease]; repeat' split
  all_goals simp
@[simp] theorem releaseLease_freeIndex (p : Port) (s : State) : (releaseLease p s).freeIndex = s.freeIndex := by
  simp only [releaseLease]; repeat' split
  all_goals simp
@[simp] theorem releaseLease_pending (p : Port) (s : State) : (releaseLease p s).pending = s.pending := by
  simp only [releaseLease]; repeat' split
  all_goals simp

/-! ## `withdrawDue` -/

@[simp] theorem withdrawDue_ports (n : Nat) (s : State) : (withdrawDue n s).ports = s.ports := by simp [withdrawDue]
@[simp] theorem withdrawDue_windows (n : Nat) (s : State) : (withdrawDue n s).windows = s.windows := by simp [withdrawDue]
@[simp] theorem withdrawDue_routes (n : Nat) (s : State) : (withdrawDue n s).routes = s.routes := by simp [withdrawDue]
@[simp] theorem withdrawDue_rx (n : Nat) (s : State) : (withdrawDue n s).rx = s.rx := by simp [withdrawDue]
@[simp] theorem withdrawDue_tx (n : Nat) (s : State) : (withdrawDue n s).tx = s.tx := by simp [withdrawDue]
@[simp] theorem withdrawDue_detector (n : Nat) (s : State) : (withdrawDue n s).detector = s.detector := by simp [withdrawDue]
@[simp] theorem withdrawDue_quiet (n : Nat) (s : State) : (withdrawDue n s).quiet = s.quiet := by simp [withdrawDue]
@[simp] theorem withdrawDue_loader (n : Nat) (s : State) : (withdrawDue n s).loader = s.loader := by simp [withdrawDue]
@[simp] theorem withdrawDue_stamp (n : Nat) (s : State) : (withdrawDue n s).stamp = s.stamp := by simp [withdrawDue]
@[simp] theorem withdrawDue_resetting (n : Nat) (s : State) : (withdrawDue n s).resetting = s.resetting := by simp [withdrawDue]
@[simp] theorem withdrawDue_nextCandidacy (n : Nat) (s : State) : (withdrawDue n s).nextCandidacy = s.nextCandidacy := by simp [withdrawDue]
@[simp] theorem withdrawDue_freeIndex (n : Nat) (s : State) : (withdrawDue n s).freeIndex = s.freeIndex := by simp [withdrawDue]
@[simp] theorem withdrawDue_pending (n : Nat) (s : State) : (withdrawDue n s).pending = s.pending := by simp [withdrawDue]

/-! ## `publish` -/

@[simp] theorem publish_windows (n : Nat) (x : List Byte) (s : State) : (publish n x s).windows = s.windows := by
  simp only [publish]; repeat' split
  all_goals simp
@[simp] theorem publish_routes (n : Nat) (x : List Byte) (s : State) : (publish n x s).routes = s.routes := by
  simp only [publish]; repeat' split
  all_goals simp
@[simp] theorem publish_rx (n : Nat) (x : List Byte) (s : State) : (publish n x s).rx = s.rx := by
  simp only [publish]; repeat' split
  all_goals simp
@[simp] theorem publish_tx (n : Nat) (x : List Byte) (s : State) : (publish n x s).tx = s.tx := by
  simp only [publish]; repeat' split
  all_goals simp
@[simp] theorem publish_detector (n : Nat) (x : List Byte) (s : State) : (publish n x s).detector = s.detector := by
  simp only [publish]; repeat' split
  all_goals simp
@[simp] theorem publish_quiet (n : Nat) (x : List Byte) (s : State) : (publish n x s).quiet = s.quiet := by
  simp only [publish]; repeat' split
  all_goals simp
@[simp] theorem publish_loader (n : Nat) (x : List Byte) (s : State) : (publish n x s).loader = s.loader := by
  simp only [publish]; repeat' split
  all_goals simp
@[simp] theorem publish_stamp (n : Nat) (x : List Byte) (s : State) : (publish n x s).stamp = s.stamp := by
  simp only [publish]; repeat' split
  all_goals simp
@[simp] theorem publish_resetting (n : Nat) (x : List Byte) (s : State) : (publish n x s).resetting = s.resetting := by
  simp only [publish]; repeat' split
  all_goals simp
@[simp] theorem publish_freeIndex (n : Nat) (x : List Byte) (s : State) : (publish n x s).freeIndex = s.freeIndex := by
  simp only [publish]; repeat' split
  all_goals simp
@[simp] theorem publish_pending (n : Nat) (x : List Byte) (s : State) : (publish n x s).pending = s.pending := by
  simp only [publish]; repeat' split
  all_goals simp

/-! ## `cover` -/

@[simp] theorem cover_windows (n : Nat) (sl : Slot) (si : StandIn) (s : State) : (cover n sl si s).windows = s.windows := by
  simp only [cover]; repeat' split
  all_goals simp
@[simp] theorem cover_routes (n : Nat) (sl : Slot) (si : StandIn) (s : State) : (cover n sl si s).routes = s.routes := by
  simp only [cover]; repeat' split
  all_goals simp
@[simp] theorem cover_rx (n : Nat) (sl : Slot) (si : StandIn) (s : State) : (cover n sl si s).rx = s.rx := by
  simp only [cover]; repeat' split
  all_goals simp
@[simp] theorem cover_tx (n : Nat) (sl : Slot) (si : StandIn) (s : State) : (cover n sl si s).tx = s.tx := by
  simp only [cover]; repeat' split
  all_goals simp
@[simp] theorem cover_detector (n : Nat) (sl : Slot) (si : StandIn) (s : State) : (cover n sl si s).detector = s.detector := by
  simp only [cover]; repeat' split
  all_goals simp
@[simp] theorem cover_quiet (n : Nat) (sl : Slot) (si : StandIn) (s : State) : (cover n sl si s).quiet = s.quiet := by
  simp only [cover]; repeat' split
  all_goals simp
@[simp] theorem cover_loader (n : Nat) (sl : Slot) (si : StandIn) (s : State) : (cover n sl si s).loader = s.loader := by
  simp only [cover]; repeat' split
  all_goals simp
@[simp] theorem cover_stamp (n : Nat) (sl : Slot) (si : StandIn) (s : State) : (cover n sl si s).stamp = s.stamp := by
  simp only [cover]; repeat' split
  all_goals simp
@[simp] theorem cover_resetting (n : Nat) (sl : Slot) (si : StandIn) (s : State) : (cover n sl si s).resetting = s.resetting := by
  simp only [cover]; repeat' split
  all_goals simp
@[simp] theorem cover_freeIndex (n : Nat) (sl : Slot) (si : StandIn) (s : State) : (cover n sl si s).freeIndex = s.freeIndex := by
  simp only [cover]; repeat' split
  all_goals simp
@[simp] theorem cover_pending (n : Nat) (sl : Slot) (si : StandIn) (s : State) : (cover n sl si s).pending = s.pending := by
  simp only [cover]; repeat' split
  all_goals simp

/-! ## `staleExpiry` -/

@[simp] theorem staleExpiry_windows (n : Nat) (sl : Slot) (s : State) : (staleExpiry n sl s).windows = s.windows := by
  simp only [staleExpiry]; repeat' split
  all_goals simp
@[simp] theorem staleExpiry_routes (n : Nat) (sl : Slot) (s : State) : (staleExpiry n sl s).routes = s.routes := by
  simp only [staleExpiry]; repeat' split
  all_goals simp
@[simp] theorem staleExpiry_rx (n : Nat) (sl : Slot) (s : State) : (staleExpiry n sl s).rx = s.rx := by
  simp only [staleExpiry]; repeat' split
  all_goals simp
@[simp] theorem staleExpiry_tx (n : Nat) (sl : Slot) (s : State) : (staleExpiry n sl s).tx = s.tx := by
  simp only [staleExpiry]; repeat' split
  all_goals simp
@[simp] theorem staleExpiry_detector (n : Nat) (sl : Slot) (s : State) : (staleExpiry n sl s).detector = s.detector := by
  simp only [staleExpiry]; repeat' split
  all_goals simp
@[simp] theorem staleExpiry_quiet (n : Nat) (sl : Slot) (s : State) : (staleExpiry n sl s).quiet = s.quiet := by
  simp only [staleExpiry]; repeat' split
  all_goals simp
@[simp] theorem staleExpiry_loader (n : Nat) (sl : Slot) (s : State) : (staleExpiry n sl s).loader = s.loader := by
  simp only [staleExpiry]; repeat' split
  all_goals simp
@[simp] theorem staleExpiry_stamp (n : Nat) (sl : Slot) (s : State) : (staleExpiry n sl s).stamp = s.stamp := by
  simp only [staleExpiry]; repeat' split
  all_goals simp
@[simp] theorem staleExpiry_resetting (n : Nat) (sl : Slot) (s : State) : (staleExpiry n sl s).resetting = s.resetting := by
  simp only [staleExpiry]; repeat' split
  all_goals simp
@[simp] theorem staleExpiry_freeIndex (n : Nat) (sl : Slot) (s : State) : (staleExpiry n sl s).freeIndex = s.freeIndex := by
  simp only [staleExpiry]; repeat' split
  all_goals simp
@[simp] theorem staleExpiry_pending (n : Nat) (sl : Slot) (s : State) : (staleExpiry n sl s).pending = s.pending := by
  simp only [staleExpiry]; repeat' split
  all_goals simp

/-! ## `judgeExpiry` -/

@[simp] theorem judgeExpiry_windows (n : Nat) (sl : Slot) (s : State) : (judgeExpiry n sl s).windows = s.windows := by
  simp only [judgeExpiry]; repeat' split
  all_goals simp
@[simp] theorem judgeExpiry_routes (n : Nat) (sl : Slot) (s : State) : (judgeExpiry n sl s).routes = s.routes := by
  simp only [judgeExpiry]; repeat' split
  all_goals simp
@[simp] theorem judgeExpiry_rx (n : Nat) (sl : Slot) (s : State) : (judgeExpiry n sl s).rx = s.rx := by
  simp only [judgeExpiry]; repeat' split
  all_goals simp
@[simp] theorem judgeExpiry_tx (n : Nat) (sl : Slot) (s : State) : (judgeExpiry n sl s).tx = s.tx := by
  simp only [judgeExpiry]; repeat' split
  all_goals simp
@[simp] theorem judgeExpiry_detector (n : Nat) (sl : Slot) (s : State) : (judgeExpiry n sl s).detector = s.detector := by
  simp only [judgeExpiry]; repeat' split
  all_goals simp
@[simp] theorem judgeExpiry_quiet (n : Nat) (sl : Slot) (s : State) : (judgeExpiry n sl s).quiet = s.quiet := by
  simp only [judgeExpiry]; repeat' split
  all_goals simp
@[simp] theorem judgeExpiry_loader (n : Nat) (sl : Slot) (s : State) : (judgeExpiry n sl s).loader = s.loader := by
  simp only [judgeExpiry]; repeat' split
  all_goals simp
@[simp] theorem judgeExpiry_stamp (n : Nat) (sl : Slot) (s : State) : (judgeExpiry n sl s).stamp = s.stamp := by
  simp only [judgeExpiry]; repeat' split
  all_goals simp
@[simp] theorem judgeExpiry_resetting (n : Nat) (sl : Slot) (s : State) : (judgeExpiry n sl s).resetting = s.resetting := by
  simp only [judgeExpiry]; repeat' split
  all_goals simp
@[simp] theorem judgeExpiry_freeIndex (n : Nat) (sl : Slot) (s : State) : (judgeExpiry n sl s).freeIndex = s.freeIndex := by
  simp only [judgeExpiry]; repeat' split
  all_goals simp
@[simp] theorem judgeExpiry_pending (n : Nat) (sl : Slot) (s : State) : (judgeExpiry n sl s).pending = s.pending := by
  simp only [judgeExpiry]; repeat' split
  all_goals simp

/-! ## `expire` -/

@[simp] theorem expire_windows (n : Nat) (s : State) : (expire n s).windows = s.windows := by
  simp only [expire]; repeat' split
  all_goals simp
@[simp] theorem expire_routes (n : Nat) (s : State) : (expire n s).routes = s.routes := by
  simp only [expire]; repeat' split
  all_goals simp
@[simp] theorem expire_rx (n : Nat) (s : State) : (expire n s).rx = s.rx := by
  simp only [expire]; repeat' split
  all_goals simp
@[simp] theorem expire_tx (n : Nat) (s : State) : (expire n s).tx = s.tx := by
  simp only [expire]; repeat' split
  all_goals simp
@[simp] theorem expire_detector (n : Nat) (s : State) : (expire n s).detector = s.detector := by
  simp only [expire]; repeat' split
  all_goals simp
@[simp] theorem expire_quiet (n : Nat) (s : State) : (expire n s).quiet = s.quiet := by
  simp only [expire]; repeat' split
  all_goals simp
@[simp] theorem expire_loader (n : Nat) (s : State) : (expire n s).loader = s.loader := by
  simp only [expire]; repeat' split
  all_goals simp
@[simp] theorem expire_stamp (n : Nat) (s : State) : (expire n s).stamp = s.stamp := by
  simp only [expire]; repeat' split
  all_goals simp
@[simp] theorem expire_resetting (n : Nat) (s : State) : (expire n s).resetting = s.resetting := by
  simp only [expire]; repeat' split
  all_goals simp
@[simp] theorem expire_freeIndex (n : Nat) (s : State) : (expire n s).freeIndex = s.freeIndex := by
  simp only [expire]; repeat' split
  all_goals simp
@[simp] theorem expire_pending (n : Nat) (s : State) : (expire n s).pending = s.pending := by
  simp only [expire]; repeat' split
  all_goals simp

/-! ## `answerQuery` -/

@[simp] theorem answerQuery_windows (l : Label) (s : State) : (answerQuery l s).windows = s.windows := by
  simp only [answerQuery]; repeat' split
  all_goals simp
@[simp] theorem answerQuery_routes (l : Label) (s : State) : (answerQuery l s).routes = s.routes := by
  simp only [answerQuery]; repeat' split
  all_goals simp
@[simp] theorem answerQuery_rx (l : Label) (s : State) : (answerQuery l s).rx = s.rx := by
  simp only [answerQuery]; repeat' split
  all_goals simp
@[simp] theorem answerQuery_tx (l : Label) (s : State) : (answerQuery l s).tx = s.tx := by
  simp only [answerQuery]; repeat' split
  all_goals simp
@[simp] theorem answerQuery_detector (l : Label) (s : State) : (answerQuery l s).detector = s.detector := by
  simp only [answerQuery]; repeat' split
  all_goals simp
@[simp] theorem answerQuery_quiet (l : Label) (s : State) : (answerQuery l s).quiet = s.quiet := by
  simp only [answerQuery]; repeat' split
  all_goals simp
@[simp] theorem answerQuery_loader (l : Label) (s : State) : (answerQuery l s).loader = s.loader := by
  simp only [answerQuery]; repeat' split
  all_goals simp
@[simp] theorem answerQuery_stamp (l : Label) (s : State) : (answerQuery l s).stamp = s.stamp := by
  simp only [answerQuery]; repeat' split
  all_goals simp
@[simp] theorem answerQuery_resetting (l : Label) (s : State) : (answerQuery l s).resetting = s.resetting := by
  simp only [answerQuery]; repeat' split
  all_goals simp
@[simp] theorem answerQuery_freeIndex (l : Label) (s : State) : (answerQuery l s).freeIndex = s.freeIndex := by
  simp only [answerQuery]; repeat' split
  all_goals simp
@[simp] theorem answerQuery_pending (l : Label) (s : State) : (answerQuery l s).pending = s.pending := by
  simp only [answerQuery]; repeat' split
  all_goals simp

/-! ## `triggerEdge` -/

@[simp] theorem triggerEdge_ports (pin : TrigPin) (e : Sense) (s : State) : (triggerEdge pin e s).ports = s.ports := rfl
@[simp] theorem triggerEdge_windows (pin : TrigPin) (e : Sense) (s : State) : (triggerEdge pin e s).windows = s.windows := rfl
@[simp] theorem triggerEdge_routes (pin : TrigPin) (e : Sense) (s : State) : (triggerEdge pin e s).routes = s.routes := rfl
@[simp] theorem triggerEdge_rx (pin : TrigPin) (e : Sense) (s : State) : (triggerEdge pin e s).rx = s.rx := rfl
@[simp] theorem triggerEdge_tx (pin : TrigPin) (e : Sense) (s : State) : (triggerEdge pin e s).tx = s.tx := rfl
@[simp] theorem triggerEdge_line (pin : TrigPin) (e : Sense) (s : State) : (triggerEdge pin e s).line = s.line := rfl
@[simp] theorem triggerEdge_detector (pin : TrigPin) (e : Sense) (s : State) : (triggerEdge pin e s).detector = s.detector := rfl
@[simp] theorem triggerEdge_quiet (pin : TrigPin) (e : Sense) (s : State) : (triggerEdge pin e s).quiet = s.quiet := rfl
@[simp] theorem triggerEdge_loader (pin : TrigPin) (e : Sense) (s : State) : (triggerEdge pin e s).loader = s.loader := rfl
@[simp] theorem triggerEdge_stamp (pin : TrigPin) (e : Sense) (s : State) : (triggerEdge pin e s).stamp = s.stamp := rfl
@[simp] theorem triggerEdge_resetting (pin : TrigPin) (e : Sense) (s : State) : (triggerEdge pin e s).resetting = s.resetting := rfl
@[simp] theorem triggerEdge_nextCandidacy (pin : TrigPin) (e : Sense) (s : State) : (triggerEdge pin e s).nextCandidacy = s.nextCandidacy := rfl
@[simp] theorem triggerEdge_freeIndex (pin : TrigPin) (e : Sense) (s : State) : (triggerEdge pin e s).freeIndex = s.freeIndex := rfl
@[simp] theorem triggerEdge_pending (pin : TrigPin) (e : Sense) (s : State) : (triggerEdge pin e s).pending = s.pending := rfl

/-! ## `releaseSlots` -/

@[simp] theorem releaseSlots_ports (s : State) : (releaseSlots s).ports = s.ports := rfl
@[simp] theorem releaseSlots_windows (s : State) : (releaseSlots s).windows = s.windows := rfl
@[simp] theorem releaseSlots_routes (s : State) : (releaseSlots s).routes = s.routes := rfl
@[simp] theorem releaseSlots_rx (s : State) : (releaseSlots s).rx = s.rx := rfl
@[simp] theorem releaseSlots_tx (s : State) : (releaseSlots s).tx = s.tx := rfl
@[simp] theorem releaseSlots_line (s : State) : (releaseSlots s).line = s.line := rfl
@[simp] theorem releaseSlots_detector (s : State) : (releaseSlots s).detector = s.detector := rfl
@[simp] theorem releaseSlots_quiet (s : State) : (releaseSlots s).quiet = s.quiet := rfl
@[simp] theorem releaseSlots_loader (s : State) : (releaseSlots s).loader = s.loader := rfl
@[simp] theorem releaseSlots_stamp (s : State) : (releaseSlots s).stamp = s.stamp := rfl
@[simp] theorem releaseSlots_resetting (s : State) : (releaseSlots s).resetting = s.resetting := rfl
@[simp] theorem releaseSlots_nextCandidacy (s : State) : (releaseSlots s).nextCandidacy = s.nextCandidacy := rfl
@[simp] theorem releaseSlots_freeIndex (s : State) : (releaseSlots s).freeIndex = s.freeIndex := rfl
@[simp] theorem releaseSlots_pending (s : State) : (releaseSlots s).pending = s.pending := rfl

/-! ## `stopNow` -/

@[simp] theorem stopNow_ports (n : Nat) (s : State) : (stopNow n s).ports = s.ports := by simp [stopNow]
@[simp] theorem stopNow_windows (n : Nat) (s : State) : (stopNow n s).windows = s.windows := by simp [stopNow]
@[simp] theorem stopNow_routes (n : Nat) (s : State) : (stopNow n s).routes = s.routes := by simp [stopNow]
@[simp] theorem stopNow_rx (n : Nat) (s : State) : (stopNow n s).rx = s.rx := by simp [stopNow]
@[simp] theorem stopNow_tx (n : Nat) (s : State) : (stopNow n s).tx = s.tx := by simp [stopNow]
@[simp] theorem stopNow_detector (n : Nat) (s : State) : (stopNow n s).detector = s.detector := by simp [stopNow]
@[simp] theorem stopNow_quiet (n : Nat) (s : State) : (stopNow n s).quiet = s.quiet := by simp [stopNow]
@[simp] theorem stopNow_loader (n : Nat) (s : State) : (stopNow n s).loader = s.loader := by simp [stopNow]
@[simp] theorem stopNow_stamp (n : Nat) (s : State) : (stopNow n s).stamp = s.stamp := by simp [stopNow]
@[simp] theorem stopNow_resetting (n : Nat) (s : State) : (stopNow n s).resetting = s.resetting := by simp [stopNow]
@[simp] theorem stopNow_nextCandidacy (n : Nat) (s : State) : (stopNow n s).nextCandidacy = s.nextCandidacy := by simp [stopNow]
@[simp] theorem stopNow_freeIndex (n : Nat) (s : State) : (stopNow n s).freeIndex = s.freeIndex := by simp [stopNow]
@[simp] theorem stopNow_pending (n : Nat) (s : State) : (stopNow n s).pending = s.pending := by simp [stopNow]

/-! ## `removeSlot` -/

@[simp] theorem removeSlot_windows (n : Nat) (s : State) : (removeSlot n s).windows = s.windows := by
  simp only [removeSlot]; repeat' split
  all_goals simp
@[simp] theorem removeSlot_routes (n : Nat) (s : State) : (removeSlot n s).routes = s.routes := by
  simp only [removeSlot]; repeat' split
  all_goals simp
@[simp] theorem removeSlot_rx (n : Nat) (s : State) : (removeSlot n s).rx = s.rx := by
  simp only [removeSlot]; repeat' split
  all_goals simp
@[simp] theorem removeSlot_tx (n : Nat) (s : State) : (removeSlot n s).tx = s.tx := by
  simp only [removeSlot]; repeat' split
  all_goals simp
@[simp] theorem removeSlot_detector (n : Nat) (s : State) : (removeSlot n s).detector = s.detector := by
  simp only [removeSlot]; repeat' split
  all_goals simp
@[simp] theorem removeSlot_quiet (n : Nat) (s : State) : (removeSlot n s).quiet = s.quiet := by
  simp only [removeSlot]; repeat' split
  all_goals simp
@[simp] theorem removeSlot_loader (n : Nat) (s : State) : (removeSlot n s).loader = s.loader := by
  simp only [removeSlot]; repeat' split
  all_goals simp
@[simp] theorem removeSlot_stamp (n : Nat) (s : State) : (removeSlot n s).stamp = s.stamp := by
  simp only [removeSlot]; repeat' split
  all_goals simp
@[simp] theorem removeSlot_resetting (n : Nat) (s : State) : (removeSlot n s).resetting = s.resetting := by
  simp only [removeSlot]; repeat' split
  all_goals simp
@[simp] theorem removeSlot_nextCandidacy (n : Nat) (s : State) : (removeSlot n s).nextCandidacy = s.nextCandidacy := by
  simp only [removeSlot]; repeat' split
  all_goals simp
@[simp] theorem removeSlot_freeIndex (n : Nat) (s : State) : (removeSlot n s).freeIndex = s.freeIndex := by
  simp only [removeSlot]; repeat' split
  all_goals simp
@[simp] theorem removeSlot_pending (n : Nat) (s : State) : (removeSlot n s).pending = s.pending := by
  simp only [removeSlot]; repeat' split
  all_goals simp

/-! ## `dueSent` -/

@[simp] theorem dueSent_ports (n : Nat) (s : State) : (dueSent n s).ports = s.ports := by simp [dueSent]
@[simp] theorem dueSent_windows (n : Nat) (s : State) : (dueSent n s).windows = s.windows := by simp [dueSent]
@[simp] theorem dueSent_routes (n : Nat) (s : State) : (dueSent n s).routes = s.routes := by simp [dueSent]
@[simp] theorem dueSent_rx (n : Nat) (s : State) : (dueSent n s).rx = s.rx := by simp [dueSent]
@[simp] theorem dueSent_tx (n : Nat) (s : State) : (dueSent n s).tx = s.tx := by simp [dueSent]
@[simp] theorem dueSent_line (n : Nat) (s : State) : (dueSent n s).line = s.line := by simp [dueSent]
@[simp] theorem dueSent_detector (n : Nat) (s : State) : (dueSent n s).detector = s.detector := by simp [dueSent]
@[simp] theorem dueSent_quiet (n : Nat) (s : State) : (dueSent n s).quiet = s.quiet := by simp [dueSent]
@[simp] theorem dueSent_loader (n : Nat) (s : State) : (dueSent n s).loader = s.loader := by simp [dueSent]
@[simp] theorem dueSent_stamp (n : Nat) (s : State) : (dueSent n s).stamp = s.stamp := by simp [dueSent]
@[simp] theorem dueSent_resetting (n : Nat) (s : State) : (dueSent n s).resetting = s.resetting := by simp [dueSent]
@[simp] theorem dueSent_nextCandidacy (n : Nat) (s : State) : (dueSent n s).nextCandidacy = s.nextCandidacy := by simp [dueSent]
@[simp] theorem dueSent_freeIndex (n : Nat) (s : State) : (dueSent n s).freeIndex = s.freeIndex := by simp [dueSent]
@[simp] theorem dueSent_pending (n : Nat) (s : State) : (dueSent n s).pending = s.pending := by simp [dueSent]

/-! ## `dueError` -/

@[simp] theorem dueError_windows (n : Nat) (s : State) : (dueError n s).windows = s.windows := by
  simp only [dueError]; repeat' split
  all_goals simp
@[simp] theorem dueError_routes (n : Nat) (s : State) : (dueError n s).routes = s.routes := by
  simp only [dueError]; repeat' split
  all_goals simp
@[simp] theorem dueError_rx (n : Nat) (s : State) : (dueError n s).rx = s.rx := by
  simp only [dueError]; repeat' split
  all_goals simp
@[simp] theorem dueError_tx (n : Nat) (s : State) : (dueError n s).tx = s.tx := by
  simp only [dueError]; repeat' split
  all_goals simp
@[simp] theorem dueError_line (n : Nat) (s : State) : (dueError n s).line = s.line := by
  simp only [dueError]; repeat' split
  all_goals simp
@[simp] theorem dueError_detector (n : Nat) (s : State) : (dueError n s).detector = s.detector := by
  simp only [dueError]; repeat' split
  all_goals simp
@[simp] theorem dueError_quiet (n : Nat) (s : State) : (dueError n s).quiet = s.quiet := by
  simp only [dueError]; repeat' split
  all_goals simp
@[simp] theorem dueError_loader (n : Nat) (s : State) : (dueError n s).loader = s.loader := by
  simp only [dueError]; repeat' split
  all_goals simp
@[simp] theorem dueError_stamp (n : Nat) (s : State) : (dueError n s).stamp = s.stamp := by
  simp only [dueError]; repeat' split
  all_goals simp
@[simp] theorem dueError_resetting (n : Nat) (s : State) : (dueError n s).resetting = s.resetting := by
  simp only [dueError]; repeat' split
  all_goals simp
@[simp] theorem dueError_nextCandidacy (n : Nat) (s : State) : (dueError n s).nextCandidacy = s.nextCandidacy := by
  simp only [dueError]; repeat' split
  all_goals simp
@[simp] theorem dueError_freeIndex (n : Nat) (s : State) : (dueError n s).freeIndex = s.freeIndex := by
  simp only [dueError]; repeat' split
  all_goals simp
@[simp] theorem dueError_pending (n : Nat) (s : State) : (dueError n s).pending = s.pending := by
  simp only [dueError]; repeat' split
  all_goals simp

/-! ## `dueAborted` -/

@[simp] theorem dueAborted_ports (n : Nat) (s : State) : (dueAborted n s).ports = s.ports := by simp [dueAborted]
@[simp] theorem dueAborted_windows (n : Nat) (s : State) : (dueAborted n s).windows = s.windows := by simp [dueAborted]
@[simp] theorem dueAborted_routes (n : Nat) (s : State) : (dueAborted n s).routes = s.routes := by simp [dueAborted]
@[simp] theorem dueAborted_rx (n : Nat) (s : State) : (dueAborted n s).rx = s.rx := by simp [dueAborted]
@[simp] theorem dueAborted_tx (n : Nat) (s : State) : (dueAborted n s).tx = s.tx := by simp [dueAborted]
@[simp] theorem dueAborted_line (n : Nat) (s : State) : (dueAborted n s).line = s.line := by simp [dueAborted]
@[simp] theorem dueAborted_detector (n : Nat) (s : State) : (dueAborted n s).detector = s.detector := by simp [dueAborted]
@[simp] theorem dueAborted_quiet (n : Nat) (s : State) : (dueAborted n s).quiet = s.quiet := by simp [dueAborted]
@[simp] theorem dueAborted_loader (n : Nat) (s : State) : (dueAborted n s).loader = s.loader := by simp [dueAborted]
@[simp] theorem dueAborted_stamp (n : Nat) (s : State) : (dueAborted n s).stamp = s.stamp := by simp [dueAborted]
@[simp] theorem dueAborted_resetting (n : Nat) (s : State) : (dueAborted n s).resetting = s.resetting := by simp [dueAborted]
@[simp] theorem dueAborted_nextCandidacy (n : Nat) (s : State) : (dueAborted n s).nextCandidacy = s.nextCandidacy := by simp [dueAborted]
@[simp] theorem dueAborted_freeIndex (n : Nat) (s : State) : (dueAborted n s).freeIndex = s.freeIndex := by simp [dueAborted]
@[simp] theorem dueAborted_pending (n : Nat) (s : State) : (dueAborted n s).pending = s.pending := by simp [dueAborted]

/-! ## `disposeSlot` -/

@[simp] theorem disposeSlot_windows (p : Port) (n : Nat) (s : State) : (disposeSlot p n s).windows = s.windows := by
  simp only [disposeSlot]; repeat' split
  all_goals simp
@[simp] theorem disposeSlot_routes (p : Port) (n : Nat) (s : State) : (disposeSlot p n s).routes = s.routes := by
  simp only [disposeSlot]; repeat' split
  all_goals simp
@[simp] theorem disposeSlot_rx (p : Port) (n : Nat) (s : State) : (disposeSlot p n s).rx = s.rx := by
  simp only [disposeSlot]; repeat' split
  all_goals simp
@[simp] theorem disposeSlot_tx (p : Port) (n : Nat) (s : State) : (disposeSlot p n s).tx = s.tx := by
  simp only [disposeSlot]; repeat' split
  all_goals simp
@[simp] theorem disposeSlot_detector (p : Port) (n : Nat) (s : State) : (disposeSlot p n s).detector = s.detector := by
  simp only [disposeSlot]; repeat' split
  all_goals simp
@[simp] theorem disposeSlot_quiet (p : Port) (n : Nat) (s : State) : (disposeSlot p n s).quiet = s.quiet := by
  simp only [disposeSlot]; repeat' split
  all_goals simp
@[simp] theorem disposeSlot_loader (p : Port) (n : Nat) (s : State) : (disposeSlot p n s).loader = s.loader := by
  simp only [disposeSlot]; repeat' split
  all_goals simp
@[simp] theorem disposeSlot_stamp (p : Port) (n : Nat) (s : State) : (disposeSlot p n s).stamp = s.stamp := by
  simp only [disposeSlot]; repeat' split
  all_goals simp
@[simp] theorem disposeSlot_resetting (p : Port) (n : Nat) (s : State) : (disposeSlot p n s).resetting = s.resetting := by
  simp only [disposeSlot]; repeat' split
  all_goals simp
@[simp] theorem disposeSlot_nextCandidacy (p : Port) (n : Nat) (s : State) : (disposeSlot p n s).nextCandidacy = s.nextCandidacy := by
  simp only [disposeSlot]; repeat' split
  all_goals simp
@[simp] theorem disposeSlot_freeIndex (p : Port) (n : Nat) (s : State) : (disposeSlot p n s).freeIndex = s.freeIndex := by
  simp only [disposeSlot]; repeat' split
  all_goals simp
@[simp] theorem disposeSlot_pending (p : Port) (n : Nat) (s : State) : (disposeSlot p n s).pending = s.pending := by
  simp only [disposeSlot]; repeat' split
  all_goals simp

/-! ## `dropStandIn` -/

@[simp] theorem dropStandIn_windows (p : Port) (n : Nat) (s : State) : (dropStandIn p n s).windows = s.windows := by
  simp only [dropStandIn]; repeat' split
  all_goals simp
@[simp] theorem dropStandIn_routes (p : Port) (n : Nat) (s : State) : (dropStandIn p n s).routes = s.routes := by
  simp only [dropStandIn]; repeat' split
  all_goals simp
@[simp] theorem dropStandIn_rx (p : Port) (n : Nat) (s : State) : (dropStandIn p n s).rx = s.rx := by
  simp only [dropStandIn]; repeat' split
  all_goals simp
@[simp] theorem dropStandIn_tx (p : Port) (n : Nat) (s : State) : (dropStandIn p n s).tx = s.tx := by
  simp only [dropStandIn]; repeat' split
  all_goals simp
@[simp] theorem dropStandIn_line (p : Port) (n : Nat) (s : State) : (dropStandIn p n s).line = s.line := by
  simp only [dropStandIn]; repeat' split
  all_goals simp
@[simp] theorem dropStandIn_detector (p : Port) (n : Nat) (s : State) : (dropStandIn p n s).detector = s.detector := by
  simp only [dropStandIn]; repeat' split
  all_goals simp
@[simp] theorem dropStandIn_quiet (p : Port) (n : Nat) (s : State) : (dropStandIn p n s).quiet = s.quiet := by
  simp only [dropStandIn]; repeat' split
  all_goals simp
@[simp] theorem dropStandIn_loader (p : Port) (n : Nat) (s : State) : (dropStandIn p n s).loader = s.loader := by
  simp only [dropStandIn]; repeat' split
  all_goals simp
@[simp] theorem dropStandIn_stamp (p : Port) (n : Nat) (s : State) : (dropStandIn p n s).stamp = s.stamp := by
  simp only [dropStandIn]; repeat' split
  all_goals simp
@[simp] theorem dropStandIn_resetting (p : Port) (n : Nat) (s : State) : (dropStandIn p n s).resetting = s.resetting := by
  simp only [dropStandIn]; repeat' split
  all_goals simp
@[simp] theorem dropStandIn_nextCandidacy (p : Port) (n : Nat) (s : State) : (dropStandIn p n s).nextCandidacy = s.nextCandidacy := by
  simp only [dropStandIn]; repeat' split
  all_goals simp
@[simp] theorem dropStandIn_freeIndex (p : Port) (n : Nat) (s : State) : (dropStandIn p n s).freeIndex = s.freeIndex := by
  simp only [dropStandIn]; repeat' split
  all_goals simp
@[simp] theorem dropStandIn_pending (p : Port) (n : Nat) (s : State) : (dropStandIn p n s).pending = s.pending := by
  simp only [dropStandIn]; repeat' split
  all_goals simp

/-! ## `appendTx` -/

@[simp] theorem appendTx_ports (p : Port) (m : List TxEntry) (s : State) : (appendTx p m s).ports = s.ports := by
  simp only [appendTx]; repeat' split
  all_goals simp
@[simp] theorem appendTx_windows (p : Port) (m : List TxEntry) (s : State) : (appendTx p m s).windows = s.windows := by
  simp only [appendTx]; repeat' split
  all_goals simp
@[simp] theorem appendTx_routes (p : Port) (m : List TxEntry) (s : State) : (appendTx p m s).routes = s.routes := by
  simp only [appendTx]; repeat' split
  all_goals simp
@[simp] theorem appendTx_rx (p : Port) (m : List TxEntry) (s : State) : (appendTx p m s).rx = s.rx := by
  simp only [appendTx]; repeat' split
  all_goals simp
@[simp] theorem appendTx_slots (p : Port) (m : List TxEntry) (s : State) : (appendTx p m s).slots = s.slots := by
  simp only [appendTx]; repeat' split
  all_goals simp
@[simp] theorem appendTx_line (p : Port) (m : List TxEntry) (s : State) : (appendTx p m s).line = s.line := by
  simp only [appendTx]; repeat' split
  all_goals simp
@[simp] theorem appendTx_detector (p : Port) (m : List TxEntry) (s : State) : (appendTx p m s).detector = s.detector := by
  simp only [appendTx]; repeat' split
  all_goals simp
@[simp] theorem appendTx_quiet (p : Port) (m : List TxEntry) (s : State) : (appendTx p m s).quiet = s.quiet := by
  simp only [appendTx]; repeat' split
  all_goals simp
@[simp] theorem appendTx_loader (p : Port) (m : List TxEntry) (s : State) : (appendTx p m s).loader = s.loader := by
  simp only [appendTx]; repeat' split
  all_goals simp
@[simp] theorem appendTx_stamp (p : Port) (m : List TxEntry) (s : State) : (appendTx p m s).stamp = s.stamp := by
  simp only [appendTx]; repeat' split
  all_goals simp
@[simp] theorem appendTx_resetting (p : Port) (m : List TxEntry) (s : State) : (appendTx p m s).resetting = s.resetting := by
  simp only [appendTx]; repeat' split
  all_goals simp
@[simp] theorem appendTx_freeIndex (p : Port) (m : List TxEntry) (s : State) : (appendTx p m s).freeIndex = s.freeIndex := by
  simp only [appendTx]; repeat' split
  all_goals simp
@[simp] theorem appendTx_pending (p : Port) (m : List TxEntry) (s : State) : (appendTx p m s).pending = s.pending := by
  simp only [appendTx]; repeat' split
  all_goals simp

/-! ## `removeHead` -/

@[simp] theorem removeHead_ports (p : Port) (s : State) : (removeHead p s).ports = s.ports := by
  simp only [removeHead]; repeat' split
  all_goals simp
@[simp] theorem removeHead_windows (p : Port) (s : State) : (removeHead p s).windows = s.windows := by
  simp only [removeHead]; repeat' split
  all_goals simp
@[simp] theorem removeHead_routes (p : Port) (s : State) : (removeHead p s).routes = s.routes := by
  simp only [removeHead]; repeat' split
  all_goals simp
@[simp] theorem removeHead_rx (p : Port) (s : State) : (removeHead p s).rx = s.rx := by
  simp only [removeHead]; repeat' split
  all_goals simp
@[simp] theorem removeHead_slots (p : Port) (s : State) : (removeHead p s).slots = s.slots := by
  simp only [removeHead]; repeat' split
  all_goals simp
@[simp] theorem removeHead_line (p : Port) (s : State) : (removeHead p s).line = s.line := by
  simp only [removeHead]; repeat' split
  all_goals simp
@[simp] theorem removeHead_detector (p : Port) (s : State) : (removeHead p s).detector = s.detector := by
  simp only [removeHead]; repeat' split
  all_goals simp
@[simp] theorem removeHead_quiet (p : Port) (s : State) : (removeHead p s).quiet = s.quiet := by
  simp only [removeHead]; repeat' split
  all_goals simp
@[simp] theorem removeHead_loader (p : Port) (s : State) : (removeHead p s).loader = s.loader := by
  simp only [removeHead]; repeat' split
  all_goals simp
@[simp] theorem removeHead_stamp (p : Port) (s : State) : (removeHead p s).stamp = s.stamp := by
  simp only [removeHead]; repeat' split
  all_goals simp
@[simp] theorem removeHead_resetting (p : Port) (s : State) : (removeHead p s).resetting = s.resetting := by
  simp only [removeHead]; repeat' split
  all_goals simp
@[simp] theorem removeHead_freeIndex (p : Port) (s : State) : (removeHead p s).freeIndex = s.freeIndex := by
  simp only [removeHead]; repeat' split
  all_goals simp
@[simp] theorem removeHead_pending (p : Port) (s : State) : (removeHead p s).pending = s.pending := by
  simp only [removeHead]; repeat' split
  all_goals simp

/-! ## `headSent` -/

@[simp] theorem headSent_windows (p : Port) (s : State) : (headSent p s).windows = s.windows := by
  simp only [headSent]; repeat' split
  all_goals simp
@[simp] theorem headSent_routes (p : Port) (s : State) : (headSent p s).routes = s.routes := by
  simp only [headSent]; repeat' split
  all_goals simp
@[simp] theorem headSent_rx (p : Port) (s : State) : (headSent p s).rx = s.rx := by
  simp only [headSent]; repeat' split
  all_goals simp
@[simp] theorem headSent_slots (p : Port) (s : State) : (headSent p s).slots = s.slots := by
  simp only [headSent]; repeat' split
  all_goals simp
@[simp] theorem headSent_line (p : Port) (s : State) : (headSent p s).line = s.line := by
  simp only [headSent]; repeat' split
  all_goals simp
@[simp] theorem headSent_detector (p : Port) (s : State) : (headSent p s).detector = s.detector := by
  simp only [headSent]; repeat' split
  all_goals simp
@[simp] theorem headSent_quiet (p : Port) (s : State) : (headSent p s).quiet = s.quiet := by
  simp only [headSent]; repeat' split
  all_goals simp
@[simp] theorem headSent_loader (p : Port) (s : State) : (headSent p s).loader = s.loader := by
  simp only [headSent]; repeat' split
  all_goals simp
@[simp] theorem headSent_stamp (p : Port) (s : State) : (headSent p s).stamp = s.stamp := by
  simp only [headSent]; repeat' split
  all_goals simp
@[simp] theorem headSent_resetting (p : Port) (s : State) : (headSent p s).resetting = s.resetting := by
  simp only [headSent]; repeat' split
  all_goals simp
@[simp] theorem headSent_freeIndex (p : Port) (s : State) : (headSent p s).freeIndex = s.freeIndex := by
  simp only [headSent]; repeat' split
  all_goals simp
@[simp] theorem headSent_pending (p : Port) (s : State) : (headSent p s).pending = s.pending := by
  simp only [headSent]; repeat' split
  all_goals simp

/-! ## `headError` -/

@[simp] theorem headError_windows (p : Port) (s : State) : (headError p s).windows = s.windows := by
  simp only [headError]; repeat' split
  all_goals simp
@[simp] theorem headError_routes (p : Port) (s : State) : (headError p s).routes = s.routes := by
  simp only [headError]; repeat' split
  all_goals simp
@[simp] theorem headError_rx (p : Port) (s : State) : (headError p s).rx = s.rx := by
  simp only [headError]; repeat' split
  all_goals simp
@[simp] theorem headError_slots (p : Port) (s : State) : (headError p s).slots = s.slots := by
  simp only [headError]; repeat' split
  all_goals simp
@[simp] theorem headError_line (p : Port) (s : State) : (headError p s).line = s.line := by
  simp only [headError]; repeat' split
  all_goals simp
@[simp] theorem headError_detector (p : Port) (s : State) : (headError p s).detector = s.detector := by
  simp only [headError]; repeat' split
  all_goals simp
@[simp] theorem headError_quiet (p : Port) (s : State) : (headError p s).quiet = s.quiet := by
  simp only [headError]; repeat' split
  all_goals simp
@[simp] theorem headError_loader (p : Port) (s : State) : (headError p s).loader = s.loader := by
  simp only [headError]; repeat' split
  all_goals simp
@[simp] theorem headError_stamp (p : Port) (s : State) : (headError p s).stamp = s.stamp := by
  simp only [headError]; repeat' split
  all_goals simp
@[simp] theorem headError_resetting (p : Port) (s : State) : (headError p s).resetting = s.resetting := by
  simp only [headError]; repeat' split
  all_goals simp
@[simp] theorem headError_freeIndex (p : Port) (s : State) : (headError p s).freeIndex = s.freeIndex := by
  simp only [headError]; repeat' split
  all_goals simp
@[simp] theorem headError_pending (p : Port) (s : State) : (headError p s).pending = s.pending := by
  simp only [headError]; repeat' split
  all_goals simp

/-! ## `admitCopy` -/

@[simp] theorem admitCopy_windows (p : Port) (r : RxRecord) (s : State) : (admitCopy p r s).windows = s.windows := by
  simp only [admitCopy]; repeat' split
  all_goals simp
@[simp] theorem admitCopy_routes (p : Port) (r : RxRecord) (s : State) : (admitCopy p r s).routes = s.routes := by
  simp only [admitCopy]; repeat' split
  all_goals simp
@[simp] theorem admitCopy_tx (p : Port) (r : RxRecord) (s : State) : (admitCopy p r s).tx = s.tx := by
  simp only [admitCopy]; repeat' split
  all_goals simp
@[simp] theorem admitCopy_slots (p : Port) (r : RxRecord) (s : State) : (admitCopy p r s).slots = s.slots := by
  simp only [admitCopy]; repeat' split
  all_goals simp
@[simp] theorem admitCopy_line (p : Port) (r : RxRecord) (s : State) : (admitCopy p r s).line = s.line := by
  simp only [admitCopy]; repeat' split
  all_goals simp
@[simp] theorem admitCopy_detector (p : Port) (r : RxRecord) (s : State) : (admitCopy p r s).detector = s.detector := by
  simp only [admitCopy]; repeat' split
  all_goals simp
@[simp] theorem admitCopy_quiet (p : Port) (r : RxRecord) (s : State) : (admitCopy p r s).quiet = s.quiet := by
  simp only [admitCopy]; repeat' split
  all_goals simp
@[simp] theorem admitCopy_loader (p : Port) (r : RxRecord) (s : State) : (admitCopy p r s).loader = s.loader := by
  simp only [admitCopy]; repeat' split
  all_goals simp
@[simp] theorem admitCopy_stamp (p : Port) (r : RxRecord) (s : State) : (admitCopy p r s).stamp = s.stamp := by
  simp only [admitCopy]; repeat' split
  all_goals simp
@[simp] theorem admitCopy_resetting (p : Port) (r : RxRecord) (s : State) : (admitCopy p r s).resetting = s.resetting := by
  simp only [admitCopy]; repeat' split
  all_goals simp
@[simp] theorem admitCopy_nextCandidacy (p : Port) (r : RxRecord) (s : State) : (admitCopy p r s).nextCandidacy = s.nextCandidacy := by
  simp only [admitCopy]; repeat' split
  all_goals simp
@[simp] theorem admitCopy_freeIndex (p : Port) (r : RxRecord) (s : State) : (admitCopy p r s).freeIndex = s.freeIndex := by
  simp only [admitCopy]; repeat' split
  all_goals simp
@[simp] theorem admitCopy_pending (p : Port) (r : RxRecord) (s : State) : (admitCopy p r s).pending = s.pending := by
  simp only [admitCopy]; repeat' split
  all_goals simp

/-! ## `admitOpt` -/

@[simp] theorem admitOpt_windows (p : Port) (r : Option RxRecord) (s : State) : (admitOpt p r s).windows = s.windows := by
  simp only [admitOpt]; repeat' split
  all_goals simp
@[simp] theorem admitOpt_routes (p : Port) (r : Option RxRecord) (s : State) : (admitOpt p r s).routes = s.routes := by
  simp only [admitOpt]; repeat' split
  all_goals simp
@[simp] theorem admitOpt_tx (p : Port) (r : Option RxRecord) (s : State) : (admitOpt p r s).tx = s.tx := by
  simp only [admitOpt]; repeat' split
  all_goals simp
@[simp] theorem admitOpt_slots (p : Port) (r : Option RxRecord) (s : State) : (admitOpt p r s).slots = s.slots := by
  simp only [admitOpt]; repeat' split
  all_goals simp
@[simp] theorem admitOpt_line (p : Port) (r : Option RxRecord) (s : State) : (admitOpt p r s).line = s.line := by
  simp only [admitOpt]; repeat' split
  all_goals simp
@[simp] theorem admitOpt_detector (p : Port) (r : Option RxRecord) (s : State) : (admitOpt p r s).detector = s.detector := by
  simp only [admitOpt]; repeat' split
  all_goals simp
@[simp] theorem admitOpt_quiet (p : Port) (r : Option RxRecord) (s : State) : (admitOpt p r s).quiet = s.quiet := by
  simp only [admitOpt]; repeat' split
  all_goals simp
@[simp] theorem admitOpt_loader (p : Port) (r : Option RxRecord) (s : State) : (admitOpt p r s).loader = s.loader := by
  simp only [admitOpt]; repeat' split
  all_goals simp
@[simp] theorem admitOpt_stamp (p : Port) (r : Option RxRecord) (s : State) : (admitOpt p r s).stamp = s.stamp := by
  simp only [admitOpt]; repeat' split
  all_goals simp
@[simp] theorem admitOpt_resetting (p : Port) (r : Option RxRecord) (s : State) : (admitOpt p r s).resetting = s.resetting := by
  simp only [admitOpt]; repeat' split
  all_goals simp
@[simp] theorem admitOpt_nextCandidacy (p : Port) (r : Option RxRecord) (s : State) : (admitOpt p r s).nextCandidacy = s.nextCandidacy := by
  simp only [admitOpt]; repeat' split
  all_goals simp
@[simp] theorem admitOpt_freeIndex (p : Port) (r : Option RxRecord) (s : State) : (admitOpt p r s).freeIndex = s.freeIndex := by
  simp only [admitOpt]; repeat' split
  all_goals simp
@[simp] theorem admitOpt_pending (p : Port) (r : Option RxRecord) (s : State) : (admitOpt p r s).pending = s.pending := by
  simp only [admitOpt]; repeat' split
  all_goals simp

/-! ## `admitGroup` -/

@[simp] theorem admitGroup_windows (a b c d : Option RxRecord) (s : State) : (admitGroup a b c d s).windows = s.windows := by simp [admitGroup]
@[simp] theorem admitGroup_routes (a b c d : Option RxRecord) (s : State) : (admitGroup a b c d s).routes = s.routes := by simp [admitGroup]
@[simp] theorem admitGroup_tx (a b c d : Option RxRecord) (s : State) : (admitGroup a b c d s).tx = s.tx := by simp [admitGroup]
@[simp] theorem admitGroup_slots (a b c d : Option RxRecord) (s : State) : (admitGroup a b c d s).slots = s.slots := by simp [admitGroup]
@[simp] theorem admitGroup_line (a b c d : Option RxRecord) (s : State) : (admitGroup a b c d s).line = s.line := by simp [admitGroup]
@[simp] theorem admitGroup_detector (a b c d : Option RxRecord) (s : State) : (admitGroup a b c d s).detector = s.detector := by simp [admitGroup]
@[simp] theorem admitGroup_quiet (a b c d : Option RxRecord) (s : State) : (admitGroup a b c d s).quiet = s.quiet := by simp [admitGroup]
@[simp] theorem admitGroup_loader (a b c d : Option RxRecord) (s : State) : (admitGroup a b c d s).loader = s.loader := by simp [admitGroup]
@[simp] theorem admitGroup_stamp (a b c d : Option RxRecord) (s : State) : (admitGroup a b c d s).stamp = s.stamp := by simp [admitGroup]
@[simp] theorem admitGroup_resetting (a b c d : Option RxRecord) (s : State) : (admitGroup a b c d s).resetting = s.resetting := by simp [admitGroup]
@[simp] theorem admitGroup_nextCandidacy (a b c d : Option RxRecord) (s : State) : (admitGroup a b c d s).nextCandidacy = s.nextCandidacy := by simp [admitGroup]
@[simp] theorem admitGroup_freeIndex (a b c d : Option RxRecord) (s : State) : (admitGroup a b c d s).freeIndex = s.freeIndex := by simp [admitGroup]
@[simp] theorem admitGroup_pending (a b c d : Option RxRecord) (s : State) : (admitGroup a b c d s).pending = s.pending := by simp [admitGroup]

/-! ## `presentCauses` -/

@[simp] theorem presentCauses_windows (p : Port) (r : Option Nat) (g : Bool) (w : Stamp) (s : State) : (presentCauses p r g w s).windows = s.windows := by
  simp only [presentCauses]; repeat' split
  all_goals simp
@[simp] theorem presentCauses_routes (p : Port) (r : Option Nat) (g : Bool) (w : Stamp) (s : State) : (presentCauses p r g w s).routes = s.routes := by
  simp only [presentCauses]; repeat' split
  all_goals simp
@[simp] theorem presentCauses_rx (p : Port) (r : Option Nat) (g : Bool) (w : Stamp) (s : State) : (presentCauses p r g w s).rx = s.rx := by
  simp only [presentCauses]; repeat' split
  all_goals simp
@[simp] theorem presentCauses_tx (p : Port) (r : Option Nat) (g : Bool) (w : Stamp) (s : State) : (presentCauses p r g w s).tx = s.tx := by
  simp only [presentCauses]; repeat' split
  all_goals simp
@[simp] theorem presentCauses_slots (p : Port) (r : Option Nat) (g : Bool) (w : Stamp) (s : State) : (presentCauses p r g w s).slots = s.slots := by
  simp only [presentCauses]; repeat' split
  all_goals simp
@[simp] theorem presentCauses_line (p : Port) (r : Option Nat) (g : Bool) (w : Stamp) (s : State) : (presentCauses p r g w s).line = s.line := by
  simp only [presentCauses]; repeat' split
  all_goals simp
@[simp] theorem presentCauses_detector (p : Port) (r : Option Nat) (g : Bool) (w : Stamp) (s : State) : (presentCauses p r g w s).detector = s.detector := by
  simp only [presentCauses]; repeat' split
  all_goals simp
@[simp] theorem presentCauses_quiet (p : Port) (r : Option Nat) (g : Bool) (w : Stamp) (s : State) : (presentCauses p r g w s).quiet = s.quiet := by
  simp only [presentCauses]; repeat' split
  all_goals simp
@[simp] theorem presentCauses_loader (p : Port) (r : Option Nat) (g : Bool) (w : Stamp) (s : State) : (presentCauses p r g w s).loader = s.loader := by
  simp only [presentCauses]; repeat' split
  all_goals simp
@[simp] theorem presentCauses_stamp (p : Port) (r : Option Nat) (g : Bool) (w : Stamp) (s : State) : (presentCauses p r g w s).stamp = s.stamp := by
  simp only [presentCauses]; repeat' split
  all_goals simp
@[simp] theorem presentCauses_resetting (p : Port) (r : Option Nat) (g : Bool) (w : Stamp) (s : State) : (presentCauses p r g w s).resetting = s.resetting := by
  simp only [presentCauses]; repeat' split
  all_goals simp
@[simp] theorem presentCauses_nextCandidacy (p : Port) (r : Option Nat) (g : Bool) (w : Stamp) (s : State) : (presentCauses p r g w s).nextCandidacy = s.nextCandidacy := by
  simp only [presentCauses]; repeat' split
  all_goals simp
@[simp] theorem presentCauses_pending (p : Port) (r : Option Nat) (g : Bool) (w : Stamp) (s : State) : (presentCauses p r g w s).pending = s.pending := by
  simp only [presentCauses]; repeat' split
  all_goals simp

/-! ## `wakePorts` -/

@[simp] theorem wakePorts_windows (o : Offer) (ds : Quad Delivery) (m : Option Remembered) (s : State) : (wakePorts o ds m s).windows = s.windows := by
  simp [wakePorts, Port.list]
@[simp] theorem wakePorts_routes (o : Offer) (ds : Quad Delivery) (m : Option Remembered) (s : State) : (wakePorts o ds m s).routes = s.routes := by
  simp [wakePorts, Port.list]
@[simp] theorem wakePorts_rx (o : Offer) (ds : Quad Delivery) (m : Option Remembered) (s : State) : (wakePorts o ds m s).rx = s.rx := by
  simp [wakePorts, Port.list]
@[simp] theorem wakePorts_tx (o : Offer) (ds : Quad Delivery) (m : Option Remembered) (s : State) : (wakePorts o ds m s).tx = s.tx := by
  simp [wakePorts, Port.list]
@[simp] theorem wakePorts_slots (o : Offer) (ds : Quad Delivery) (m : Option Remembered) (s : State) : (wakePorts o ds m s).slots = s.slots := by
  simp [wakePorts, Port.list]
@[simp] theorem wakePorts_line (o : Offer) (ds : Quad Delivery) (m : Option Remembered) (s : State) : (wakePorts o ds m s).line = s.line := by
  simp [wakePorts, Port.list]
@[simp] theorem wakePorts_detector (o : Offer) (ds : Quad Delivery) (m : Option Remembered) (s : State) : (wakePorts o ds m s).detector = s.detector := by
  simp [wakePorts, Port.list]
@[simp] theorem wakePorts_quiet (o : Offer) (ds : Quad Delivery) (m : Option Remembered) (s : State) : (wakePorts o ds m s).quiet = s.quiet := by
  simp [wakePorts, Port.list]
@[simp] theorem wakePorts_loader (o : Offer) (ds : Quad Delivery) (m : Option Remembered) (s : State) : (wakePorts o ds m s).loader = s.loader := by
  simp [wakePorts, Port.list]
@[simp] theorem wakePorts_stamp (o : Offer) (ds : Quad Delivery) (m : Option Remembered) (s : State) : (wakePorts o ds m s).stamp = s.stamp := by
  simp [wakePorts, Port.list]
@[simp] theorem wakePorts_resetting (o : Offer) (ds : Quad Delivery) (m : Option Remembered) (s : State) : (wakePorts o ds m s).resetting = s.resetting := by
  simp [wakePorts, Port.list]
@[simp] theorem wakePorts_nextCandidacy (o : Offer) (ds : Quad Delivery) (m : Option Remembered) (s : State) : (wakePorts o ds m s).nextCandidacy = s.nextCandidacy := by
  simp [wakePorts, Port.list]
@[simp] theorem wakePorts_pending (o : Offer) (ds : Quad Delivery) (m : Option Remembered) (s : State) : (wakePorts o ds m s).pending = s.pending := by
  simp [wakePorts, Port.list]

/-! ## `offer` -/

@[simp] theorem offer_windows (o : Offer) (a : Bool) (s : State) : (offer o a s).windows = s.windows := by
  simp only [offer]; repeat' split
  all_goals simp
@[simp] theorem offer_routes (o : Offer) (a : Bool) (s : State) : (offer o a s).routes = s.routes := by
  simp only [offer]; repeat' split
  all_goals simp
@[simp] theorem offer_tx (o : Offer) (a : Bool) (s : State) : (offer o a s).tx = s.tx := by
  simp only [offer]; repeat' split
  all_goals simp
@[simp] theorem offer_quiet (o : Offer) (a : Bool) (s : State) : (offer o a s).quiet = s.quiet := by
  simp only [offer]; repeat' split
  all_goals simp
@[simp] theorem offer_loader (o : Offer) (a : Bool) (s : State) : (offer o a s).loader = s.loader := by
  simp only [offer]; repeat' split
  all_goals simp
@[simp] theorem offer_stamp (o : Offer) (a : Bool) (s : State) : (offer o a s).stamp = s.stamp := by
  simp only [offer]; repeat' split
  all_goals simp
@[simp] theorem offer_resetting (o : Offer) (a : Bool) (s : State) : (offer o a s).resetting = s.resetting := by
  simp only [offer]; repeat' split
  all_goals simp
@[simp] theorem offer_pending (o : Offer) (a : Bool) (s : State) : (offer o a s).pending = s.pending := by
  simp only [offer]; repeat' split
  all_goals simp

/-! ## `reportSent` -/

@[simp] theorem reportSent_windows (src : Source) (s : State) : (reportSent src s).windows = s.windows := by
  simp only [reportSent]; repeat' split
  all_goals simp
@[simp] theorem reportSent_routes (src : Source) (s : State) : (reportSent src s).routes = s.routes := by
  simp only [reportSent]; repeat' split
  all_goals simp
@[simp] theorem reportSent_rx (src : Source) (s : State) : (reportSent src s).rx = s.rx := by
  simp only [reportSent]; repeat' split
  all_goals simp
@[simp] theorem reportSent_line (src : Source) (s : State) : (reportSent src s).line = s.line := by
  simp only [reportSent]; repeat' split
  all_goals simp
@[simp] theorem reportSent_detector (src : Source) (s : State) : (reportSent src s).detector = s.detector := by
  simp only [reportSent]; repeat' split
  all_goals simp
@[simp] theorem reportSent_quiet (src : Source) (s : State) : (reportSent src s).quiet = s.quiet := by
  simp only [reportSent]; repeat' split
  all_goals simp
@[simp] theorem reportSent_loader (src : Source) (s : State) : (reportSent src s).loader = s.loader := by
  simp only [reportSent]; repeat' split
  all_goals simp
@[simp] theorem reportSent_stamp (src : Source) (s : State) : (reportSent src s).stamp = s.stamp := by
  simp only [reportSent]; repeat' split
  all_goals simp
@[simp] theorem reportSent_resetting (src : Source) (s : State) : (reportSent src s).resetting = s.resetting := by
  simp only [reportSent]; repeat' split
  all_goals simp
@[simp] theorem reportSent_freeIndex (src : Source) (s : State) : (reportSent src s).freeIndex = s.freeIndex := by
  simp only [reportSent]; repeat' split
  all_goals simp
@[simp] theorem reportSent_pending (src : Source) (s : State) : (reportSent src s).pending = s.pending := by
  simp only [reportSent]; repeat' split
  all_goals simp

/-! ## `reportError` -/

@[simp] theorem reportError_windows (src : Source) (s : State) : (reportError src s).windows = s.windows := by
  simp only [reportError]; repeat' split
  all_goals simp
@[simp] theorem reportError_routes (src : Source) (s : State) : (reportError src s).routes = s.routes := by
  simp only [reportError]; repeat' split
  all_goals simp
@[simp] theorem reportError_rx (src : Source) (s : State) : (reportError src s).rx = s.rx := by
  simp only [reportError]; repeat' split
  all_goals simp
@[simp] theorem reportError_line (src : Source) (s : State) : (reportError src s).line = s.line := by
  simp only [reportError]; repeat' split
  all_goals simp
@[simp] theorem reportError_detector (src : Source) (s : State) : (reportError src s).detector = s.detector := by
  simp only [reportError]; repeat' split
  all_goals simp
@[simp] theorem reportError_quiet (src : Source) (s : State) : (reportError src s).quiet = s.quiet := by
  simp only [reportError]; repeat' split
  all_goals simp
@[simp] theorem reportError_loader (src : Source) (s : State) : (reportError src s).loader = s.loader := by
  simp only [reportError]; repeat' split
  all_goals simp
@[simp] theorem reportError_stamp (src : Source) (s : State) : (reportError src s).stamp = s.stamp := by
  simp only [reportError]; repeat' split
  all_goals simp
@[simp] theorem reportError_resetting (src : Source) (s : State) : (reportError src s).resetting = s.resetting := by
  simp only [reportError]; repeat' split
  all_goals simp
@[simp] theorem reportError_freeIndex (src : Source) (s : State) : (reportError src s).freeIndex = s.freeIndex := by
  simp only [reportError]; repeat' split
  all_goals simp
@[simp] theorem reportError_pending (src : Source) (s : State) : (reportError src s).pending = s.pending := by
  simp only [reportError]; repeat' split
  all_goals simp

/-! ## `reportAborted` -/

@[simp] theorem reportAborted_ports (src : Source) (s : State) : (reportAborted src s).ports = s.ports := by
  simp only [reportAborted]; repeat' split
  all_goals simp
@[simp] theorem reportAborted_windows (src : Source) (s : State) : (reportAborted src s).windows = s.windows := by
  simp only [reportAborted]; repeat' split
  all_goals simp
@[simp] theorem reportAborted_routes (src : Source) (s : State) : (reportAborted src s).routes = s.routes := by
  simp only [reportAborted]; repeat' split
  all_goals simp
@[simp] theorem reportAborted_rx (src : Source) (s : State) : (reportAborted src s).rx = s.rx := by
  simp only [reportAborted]; repeat' split
  all_goals simp
@[simp] theorem reportAborted_tx (src : Source) (s : State) : (reportAborted src s).tx = s.tx := by
  simp only [reportAborted]; repeat' split
  all_goals simp
@[simp] theorem reportAborted_line (src : Source) (s : State) : (reportAborted src s).line = s.line := by
  simp only [reportAborted]; repeat' split
  all_goals simp
@[simp] theorem reportAborted_detector (src : Source) (s : State) : (reportAborted src s).detector = s.detector := by
  simp only [reportAborted]; repeat' split
  all_goals simp
@[simp] theorem reportAborted_quiet (src : Source) (s : State) : (reportAborted src s).quiet = s.quiet := by
  simp only [reportAborted]; repeat' split
  all_goals simp
@[simp] theorem reportAborted_loader (src : Source) (s : State) : (reportAborted src s).loader = s.loader := by
  simp only [reportAborted]; repeat' split
  all_goals simp
@[simp] theorem reportAborted_stamp (src : Source) (s : State) : (reportAborted src s).stamp = s.stamp := by
  simp only [reportAborted]; repeat' split
  all_goals simp
@[simp] theorem reportAborted_resetting (src : Source) (s : State) : (reportAborted src s).resetting = s.resetting := by
  simp only [reportAborted]; repeat' split
  all_goals simp
@[simp] theorem reportAborted_nextCandidacy (src : Source) (s : State) : (reportAborted src s).nextCandidacy = s.nextCandidacy := by
  simp only [reportAborted]; repeat' split
  all_goals simp
@[simp] theorem reportAborted_freeIndex (src : Source) (s : State) : (reportAborted src s).freeIndex = s.freeIndex := by
  simp only [reportAborted]; repeat' split
  all_goals simp
@[simp] theorem reportAborted_pending (src : Source) (s : State) : (reportAborted src s).pending = s.pending := by
  simp only [reportAborted]; repeat' split
  all_goals simp

/-! ## `announceLine` -/

@[simp] theorem announceLine_windows (b : LineState) (s : State) : (announceLine b s).windows = s.windows := by
  simp only [announceLine]; repeat' split
  all_goals simp
@[simp] theorem announceLine_routes (b : LineState) (s : State) : (announceLine b s).routes = s.routes := by
  simp only [announceLine]; repeat' split
  all_goals simp
@[simp] theorem announceLine_rx (b : LineState) (s : State) : (announceLine b s).rx = s.rx := by
  simp only [announceLine]; repeat' split
  all_goals simp
@[simp] theorem announceLine_tx (b : LineState) (s : State) : (announceLine b s).tx = s.tx := by
  simp only [announceLine]; repeat' split
  all_goals simp
@[simp] theorem announceLine_slots (b : LineState) (s : State) : (announceLine b s).slots = s.slots := by
  simp only [announceLine]; repeat' split
  all_goals simp
@[simp] theorem announceLine_line (b : LineState) (s : State) : (announceLine b s).line = s.line := by
  simp only [announceLine]; repeat' split
  all_goals simp
@[simp] theorem announceLine_detector (b : LineState) (s : State) : (announceLine b s).detector = s.detector := by
  simp only [announceLine]; repeat' split
  all_goals simp
@[simp] theorem announceLine_quiet (b : LineState) (s : State) : (announceLine b s).quiet = s.quiet := by
  simp only [announceLine]; repeat' split
  all_goals simp
@[simp] theorem announceLine_loader (b : LineState) (s : State) : (announceLine b s).loader = s.loader := by
  simp only [announceLine]; repeat' split
  all_goals simp
@[simp] theorem announceLine_stamp (b : LineState) (s : State) : (announceLine b s).stamp = s.stamp := by
  simp only [announceLine]; repeat' split
  all_goals simp
@[simp] theorem announceLine_resetting (b : LineState) (s : State) : (announceLine b s).resetting = s.resetting := by
  simp only [announceLine]; repeat' split
  all_goals simp
@[simp] theorem announceLine_nextCandidacy (b : LineState) (s : State) : (announceLine b s).nextCandidacy = s.nextCandidacy := by
  simp only [announceLine]; repeat' split
  all_goals simp
@[simp] theorem announceLine_freeIndex (b : LineState) (s : State) : (announceLine b s).freeIndex = s.freeIndex := by
  simp only [announceLine]; repeat' split
  all_goals simp
@[simp] theorem announceLine_pending (b : LineState) (s : State) : (announceLine b s).pending = s.pending := by
  simp only [announceLine]; repeat' split
  all_goals simp

/-! ## `startLine` -/

@[simp] theorem startLine_windows (s : State) : (startLine s).windows = s.windows := by simp [startLine]
@[simp] theorem startLine_routes (s : State) : (startLine s).routes = s.routes := by simp [startLine]
@[simp] theorem startLine_rx (s : State) : (startLine s).rx = s.rx := by simp [startLine]
@[simp] theorem startLine_tx (s : State) : (startLine s).tx = s.tx := by simp [startLine]
@[simp] theorem startLine_slots (s : State) : (startLine s).slots = s.slots := by simp [startLine]
@[simp] theorem startLine_detector (s : State) : (startLine s).detector = s.detector := by simp [startLine]
@[simp] theorem startLine_quiet (s : State) : (startLine s).quiet = s.quiet := by simp [startLine]
@[simp] theorem startLine_loader (s : State) : (startLine s).loader = s.loader := by simp [startLine]
@[simp] theorem startLine_stamp (s : State) : (startLine s).stamp = s.stamp := by simp [startLine]
@[simp] theorem startLine_resetting (s : State) : (startLine s).resetting = s.resetting := by simp [startLine]
@[simp] theorem startLine_nextCandidacy (s : State) : (startLine s).nextCandidacy = s.nextCandidacy := by simp [startLine]
@[simp] theorem startLine_freeIndex (s : State) : (startLine s).freeIndex = s.freeIndex := by simp [startLine]
@[simp] theorem startLine_pending (s : State) : (startLine s).pending = s.pending := by simp [startLine]

/-! ## `enterDegraded` -/

@[simp] theorem enterDegraded_windows (s : State) : (enterDegraded s).windows = s.windows := by simp [enterDegraded]
@[simp] theorem enterDegraded_routes (s : State) : (enterDegraded s).routes = s.routes := by simp [enterDegraded]
@[simp] theorem enterDegraded_rx (s : State) : (enterDegraded s).rx = s.rx := by simp [enterDegraded]
@[simp] theorem enterDegraded_tx (s : State) : (enterDegraded s).tx = s.tx := by simp [enterDegraded]
@[simp] theorem enterDegraded_slots (s : State) : (enterDegraded s).slots = s.slots := by simp [enterDegraded]
@[simp] theorem enterDegraded_detector (s : State) : (enterDegraded s).detector = s.detector := by simp [enterDegraded]
@[simp] theorem enterDegraded_quiet (s : State) : (enterDegraded s).quiet = s.quiet := by simp [enterDegraded]
@[simp] theorem enterDegraded_loader (s : State) : (enterDegraded s).loader = s.loader := by simp [enterDegraded]
@[simp] theorem enterDegraded_stamp (s : State) : (enterDegraded s).stamp = s.stamp := by simp [enterDegraded]
@[simp] theorem enterDegraded_resetting (s : State) : (enterDegraded s).resetting = s.resetting := by simp [enterDegraded]
@[simp] theorem enterDegraded_nextCandidacy (s : State) : (enterDegraded s).nextCandidacy = s.nextCandidacy := by simp [enterDegraded]
@[simp] theorem enterDegraded_freeIndex (s : State) : (enterDegraded s).freeIndex = s.freeIndex := by simp [enterDegraded]
@[simp] theorem enterDegraded_pending (s : State) : (enterDegraded s).pending = s.pending := by simp [enterDegraded]

/-! ## `checkDegraded` -/

@[simp] theorem checkDegraded_windows (s : State) : (checkDegraded s).windows = s.windows := by
  simp only [checkDegraded]; repeat' split
  all_goals simp
@[simp] theorem checkDegraded_routes (s : State) : (checkDegraded s).routes = s.routes := by
  simp only [checkDegraded]; repeat' split
  all_goals simp
@[simp] theorem checkDegraded_rx (s : State) : (checkDegraded s).rx = s.rx := by
  simp only [checkDegraded]; repeat' split
  all_goals simp
@[simp] theorem checkDegraded_tx (s : State) : (checkDegraded s).tx = s.tx := by
  simp only [checkDegraded]; repeat' split
  all_goals simp
@[simp] theorem checkDegraded_slots (s : State) : (checkDegraded s).slots = s.slots := by
  simp only [checkDegraded]; repeat' split
  all_goals simp
@[simp] theorem checkDegraded_detector (s : State) : (checkDegraded s).detector = s.detector := by
  simp only [checkDegraded]; repeat' split
  all_goals simp
@[simp] theorem checkDegraded_quiet (s : State) : (checkDegraded s).quiet = s.quiet := by
  simp only [checkDegraded]; repeat' split
  all_goals simp
@[simp] theorem checkDegraded_loader (s : State) : (checkDegraded s).loader = s.loader := by
  simp only [checkDegraded]; repeat' split
  all_goals simp
@[simp] theorem checkDegraded_stamp (s : State) : (checkDegraded s).stamp = s.stamp := by
  simp only [checkDegraded]; repeat' split
  all_goals simp
@[simp] theorem checkDegraded_resetting (s : State) : (checkDegraded s).resetting = s.resetting := by
  simp only [checkDegraded]; repeat' split
  all_goals simp
@[simp] theorem checkDegraded_nextCandidacy (s : State) : (checkDegraded s).nextCandidacy = s.nextCandidacy := by
  simp only [checkDegraded]; repeat' split
  all_goals simp
@[simp] theorem checkDegraded_freeIndex (s : State) : (checkDegraded s).freeIndex = s.freeIndex := by
  simp only [checkDegraded]; repeat' split
  all_goals simp
@[simp] theorem checkDegraded_pending (s : State) : (checkDegraded s).pending = s.pending := by
  simp only [checkDegraded]; repeat' split
  all_goals simp

/-! ## `abortAttempt` -/

@[simp] theorem abortAttempt_ports (s : State) : (abortAttempt s).ports = s.ports := by
  simp only [abortAttempt]; repeat' split
  all_goals simp
@[simp] theorem abortAttempt_windows (s : State) : (abortAttempt s).windows = s.windows := by
  simp only [abortAttempt]; repeat' split
  all_goals simp
@[simp] theorem abortAttempt_routes (s : State) : (abortAttempt s).routes = s.routes := by
  simp only [abortAttempt]; repeat' split
  all_goals simp
@[simp] theorem abortAttempt_rx (s : State) : (abortAttempt s).rx = s.rx := by
  simp only [abortAttempt]; repeat' split
  all_goals simp
@[simp] theorem abortAttempt_tx (s : State) : (abortAttempt s).tx = s.tx := by
  simp only [abortAttempt]; repeat' split
  all_goals simp
@[simp] theorem abortAttempt_detector (s : State) : (abortAttempt s).detector = s.detector := by
  simp only [abortAttempt]; repeat' split
  all_goals simp
@[simp] theorem abortAttempt_quiet (s : State) : (abortAttempt s).quiet = s.quiet := by
  simp only [abortAttempt]; repeat' split
  all_goals simp
@[simp] theorem abortAttempt_loader (s : State) : (abortAttempt s).loader = s.loader := by
  simp only [abortAttempt]; repeat' split
  all_goals simp
@[simp] theorem abortAttempt_stamp (s : State) : (abortAttempt s).stamp = s.stamp := by
  simp only [abortAttempt]; repeat' split
  all_goals simp
@[simp] theorem abortAttempt_resetting (s : State) : (abortAttempt s).resetting = s.resetting := by
  simp only [abortAttempt]; repeat' split
  all_goals simp
@[simp] theorem abortAttempt_nextCandidacy (s : State) : (abortAttempt s).nextCandidacy = s.nextCandidacy := by
  simp only [abortAttempt]; repeat' split
  all_goals simp
@[simp] theorem abortAttempt_freeIndex (s : State) : (abortAttempt s).freeIndex = s.freeIndex := by
  simp only [abortAttempt]; repeat' split
  all_goals simp
@[simp] theorem abortAttempt_pending (s : State) : (abortAttempt s).pending = s.pending := by
  simp only [abortAttempt]; repeat' split
  all_goals simp

/-! ## `turnLineOff` -/

@[simp] theorem turnLineOff_windows (s : State) : (turnLineOff s).windows = s.windows := by
  simp only [turnLineOff]; repeat' split
  all_goals simp
@[simp] theorem turnLineOff_routes (s : State) : (turnLineOff s).routes = s.routes := by
  simp only [turnLineOff]; repeat' split
  all_goals simp
@[simp] theorem turnLineOff_rx (s : State) : (turnLineOff s).rx = s.rx := by
  simp only [turnLineOff]; repeat' split
  all_goals simp
@[simp] theorem turnLineOff_tx (s : State) : (turnLineOff s).tx = s.tx := by
  simp only [turnLineOff]; repeat' split
  all_goals simp
@[simp] theorem turnLineOff_detector (s : State) : (turnLineOff s).detector = s.detector := by
  simp only [turnLineOff]; repeat' split
  all_goals simp
@[simp] theorem turnLineOff_quiet (s : State) : (turnLineOff s).quiet = s.quiet := by
  simp only [turnLineOff]; repeat' split
  all_goals simp
@[simp] theorem turnLineOff_loader (s : State) : (turnLineOff s).loader = s.loader := by
  simp only [turnLineOff]; repeat' split
  all_goals simp
@[simp] theorem turnLineOff_stamp (s : State) : (turnLineOff s).stamp = s.stamp := by
  simp only [turnLineOff]; repeat' split
  all_goals simp
@[simp] theorem turnLineOff_resetting (s : State) : (turnLineOff s).resetting = s.resetting := by
  simp only [turnLineOff]; repeat' split
  all_goals simp
@[simp] theorem turnLineOff_nextCandidacy (s : State) : (turnLineOff s).nextCandidacy = s.nextCandidacy := by
  simp only [turnLineOff]; repeat' split
  all_goals simp
@[simp] theorem turnLineOff_freeIndex (s : State) : (turnLineOff s).freeIndex = s.freeIndex := by
  simp only [turnLineOff]; repeat' split
  all_goals simp
@[simp] theorem turnLineOff_pending (s : State) : (turnLineOff s).pending = s.pending := by
  simp only [turnLineOff]; repeat' split
  all_goals simp

/-! ## `clearTx` -/

@[simp] theorem clearTx_ports (p : Port) (s : State) : (clearTx p s).ports = s.ports := by simp [clearTx]
@[simp] theorem clearTx_windows (p : Port) (s : State) : (clearTx p s).windows = s.windows := by simp [clearTx]
@[simp] theorem clearTx_routes (p : Port) (s : State) : (clearTx p s).routes = s.routes := by simp [clearTx]
@[simp] theorem clearTx_rx (p : Port) (s : State) : (clearTx p s).rx = s.rx := by simp [clearTx]
@[simp] theorem clearTx_slots (p : Port) (s : State) : (clearTx p s).slots = s.slots := by simp [clearTx]
@[simp] theorem clearTx_detector (p : Port) (s : State) : (clearTx p s).detector = s.detector := by simp [clearTx]
@[simp] theorem clearTx_quiet (p : Port) (s : State) : (clearTx p s).quiet = s.quiet := by simp [clearTx]
@[simp] theorem clearTx_loader (p : Port) (s : State) : (clearTx p s).loader = s.loader := by simp [clearTx]
@[simp] theorem clearTx_stamp (p : Port) (s : State) : (clearTx p s).stamp = s.stamp := by simp [clearTx]
@[simp] theorem clearTx_resetting (p : Port) (s : State) : (clearTx p s).resetting = s.resetting := by simp [clearTx]
@[simp] theorem clearTx_nextCandidacy (p : Port) (s : State) : (clearTx p s).nextCandidacy = s.nextCandidacy := by simp [clearTx]
@[simp] theorem clearTx_freeIndex (p : Port) (s : State) : (clearTx p s).freeIndex = s.freeIndex := by simp [clearTx]
@[simp] theorem clearTx_pending (p : Port) (s : State) : (clearTx p s).pending = s.pending := by simp [clearTx]

/-! ## `clearRx` -/

@[simp] theorem clearRx_ports (p : Port) (s : State) : (clearRx p s).ports = s.ports := rfl
@[simp] theorem clearRx_windows (p : Port) (s : State) : (clearRx p s).windows = s.windows := rfl
@[simp] theorem clearRx_routes (p : Port) (s : State) : (clearRx p s).routes = s.routes := rfl
@[simp] theorem clearRx_tx (p : Port) (s : State) : (clearRx p s).tx = s.tx := rfl
@[simp] theorem clearRx_slots (p : Port) (s : State) : (clearRx p s).slots = s.slots := rfl
@[simp] theorem clearRx_line (p : Port) (s : State) : (clearRx p s).line = s.line := rfl
@[simp] theorem clearRx_detector (p : Port) (s : State) : (clearRx p s).detector = s.detector := rfl
@[simp] theorem clearRx_quiet (p : Port) (s : State) : (clearRx p s).quiet = s.quiet := rfl
@[simp] theorem clearRx_loader (p : Port) (s : State) : (clearRx p s).loader = s.loader := rfl
@[simp] theorem clearRx_stamp (p : Port) (s : State) : (clearRx p s).stamp = s.stamp := rfl
@[simp] theorem clearRx_resetting (p : Port) (s : State) : (clearRx p s).resetting = s.resetting := rfl
@[simp] theorem clearRx_nextCandidacy (p : Port) (s : State) : (clearRx p s).nextCandidacy = s.nextCandidacy := rfl
@[simp] theorem clearRx_freeIndex (p : Port) (s : State) : (clearRx p s).freeIndex = s.freeIndex := rfl
@[simp] theorem clearRx_pending (p : Port) (s : State) : (clearRx p s).pending = s.pending := rfl

/-! ## `freeRoutes` -/

@[simp] theorem freeRoutes_ports (p : Port) (s : State) : (freeRoutes p s).ports = s.ports := rfl
@[simp] theorem freeRoutes_windows (p : Port) (s : State) : (freeRoutes p s).windows = s.windows := rfl
@[simp] theorem freeRoutes_rx (p : Port) (s : State) : (freeRoutes p s).rx = s.rx := rfl
@[simp] theorem freeRoutes_tx (p : Port) (s : State) : (freeRoutes p s).tx = s.tx := rfl
@[simp] theorem freeRoutes_slots (p : Port) (s : State) : (freeRoutes p s).slots = s.slots := rfl
@[simp] theorem freeRoutes_line (p : Port) (s : State) : (freeRoutes p s).line = s.line := rfl
@[simp] theorem freeRoutes_detector (p : Port) (s : State) : (freeRoutes p s).detector = s.detector := rfl
@[simp] theorem freeRoutes_quiet (p : Port) (s : State) : (freeRoutes p s).quiet = s.quiet := rfl
@[simp] theorem freeRoutes_loader (p : Port) (s : State) : (freeRoutes p s).loader = s.loader := rfl
@[simp] theorem freeRoutes_stamp (p : Port) (s : State) : (freeRoutes p s).stamp = s.stamp := rfl
@[simp] theorem freeRoutes_resetting (p : Port) (s : State) : (freeRoutes p s).resetting = s.resetting := rfl
@[simp] theorem freeRoutes_nextCandidacy (p : Port) (s : State) : (freeRoutes p s).nextCandidacy = s.nextCandidacy := rfl
@[simp] theorem freeRoutes_freeIndex (p : Port) (s : State) : (freeRoutes p s).freeIndex = s.freeIndex := rfl
@[simp] theorem freeRoutes_pending (p : Port) (s : State) : (freeRoutes p s).pending = s.pending := rfl

/-! ## `teardown` -/

@[simp] theorem teardown_windows (p : Port) (c : DetachCause) (s : State) : (teardown p c s).windows = s.windows := by
  unfold teardown; simp only [State.modUnit_windows]
  exact forSlots_keeps (I := fun t => t.windows = s.windows) (fun n t h => by simp [h])
    (forSlots_keeps (I := fun t => t.windows = s.windows) (fun n t h => by simp [h]) (by simp))
@[simp] theorem teardown_detector (p : Port) (c : DetachCause) (s : State) : (teardown p c s).detector = s.detector := by
  unfold teardown; simp only [State.modUnit_detector]
  exact forSlots_keeps (I := fun t => t.detector = s.detector) (fun n t h => by simp [h])
    (forSlots_keeps (I := fun t => t.detector = s.detector) (fun n t h => by simp [h]) (by simp))
@[simp] theorem teardown_quiet (p : Port) (c : DetachCause) (s : State) : (teardown p c s).quiet = s.quiet := by
  unfold teardown; simp only [State.modUnit_quiet]
  exact forSlots_keeps (I := fun t => t.quiet = s.quiet) (fun n t h => by simp [h])
    (forSlots_keeps (I := fun t => t.quiet = s.quiet) (fun n t h => by simp [h]) (by simp))
@[simp] theorem teardown_loader (p : Port) (c : DetachCause) (s : State) : (teardown p c s).loader = s.loader := by
  unfold teardown; simp only [State.modUnit_loader]
  exact forSlots_keeps (I := fun t => t.loader = s.loader) (fun n t h => by simp [h])
    (forSlots_keeps (I := fun t => t.loader = s.loader) (fun n t h => by simp [h]) (by simp))
@[simp] theorem teardown_stamp (p : Port) (c : DetachCause) (s : State) : (teardown p c s).stamp = s.stamp := by
  unfold teardown; simp only [State.modUnit_stamp]
  exact forSlots_keeps (I := fun t => t.stamp = s.stamp) (fun n t h => by simp [h])
    (forSlots_keeps (I := fun t => t.stamp = s.stamp) (fun n t h => by simp [h]) (by simp))
@[simp] theorem teardown_resetting (p : Port) (c : DetachCause) (s : State) : (teardown p c s).resetting = s.resetting := by
  unfold teardown; simp only [State.modUnit_resetting]
  exact forSlots_keeps (I := fun t => t.resetting = s.resetting) (fun n t h => by simp [h])
    (forSlots_keeps (I := fun t => t.resetting = s.resetting) (fun n t h => by simp [h]) (by simp))
@[simp] theorem teardown_nextCandidacy (p : Port) (c : DetachCause) (s : State) : (teardown p c s).nextCandidacy = s.nextCandidacy := by
  unfold teardown; simp only [State.modUnit_nextCandidacy]
  exact forSlots_keeps (I := fun t => t.nextCandidacy = s.nextCandidacy) (fun n t h => by simp [h])
    (forSlots_keeps (I := fun t => t.nextCandidacy = s.nextCandidacy) (fun n t h => by simp [h]) (by simp))
@[simp] theorem teardown_freeIndex (p : Port) (c : DetachCause) (s : State) : (teardown p c s).freeIndex = s.freeIndex := by
  unfold teardown; simp only [State.modUnit_freeIndex]
  exact forSlots_keeps (I := fun t => t.freeIndex = s.freeIndex) (fun n t h => by simp [h])
    (forSlots_keeps (I := fun t => t.freeIndex = s.freeIndex) (fun n t h => by simp [h]) (by simp))
@[simp] theorem teardown_pending (p : Port) (c : DetachCause) (s : State) : (teardown p c s).pending = s.pending := by
  unfold teardown; simp only [State.modUnit_pending]
  exact forSlots_keeps (I := fun t => t.pending = s.pending) (fun n t h => by simp [h])
    (forSlots_keeps (I := fun t => t.pending = s.pending) (fun n t h => by simp [h]) (by simp))

/-! ## `takeDoze` -/

@[simp] theorem takeDoze_windows (p : Port) (w : WakeSet) (k : Nat) (s : State) : (takeDoze p w k s).windows = s.windows := by
  simp only [takeDoze]; repeat' split
  all_goals simp
@[simp] theorem takeDoze_routes (p : Port) (w : WakeSet) (k : Nat) (s : State) : (takeDoze p w k s).routes = s.routes := by
  simp only [takeDoze]; repeat' split
  all_goals simp
@[simp] theorem takeDoze_rx (p : Port) (w : WakeSet) (k : Nat) (s : State) : (takeDoze p w k s).rx = s.rx := by
  simp only [takeDoze]; repeat' split
  all_goals simp
@[simp] theorem takeDoze_tx (p : Port) (w : WakeSet) (k : Nat) (s : State) : (takeDoze p w k s).tx = s.tx := by
  simp only [takeDoze]; repeat' split
  all_goals simp
@[simp] theorem takeDoze_slots (p : Port) (w : WakeSet) (k : Nat) (s : State) : (takeDoze p w k s).slots = s.slots := by
  simp only [takeDoze]; repeat' split
  all_goals simp
@[simp] theorem takeDoze_detector (p : Port) (w : WakeSet) (k : Nat) (s : State) : (takeDoze p w k s).detector = s.detector := by
  simp only [takeDoze]; repeat' split
  all_goals simp
@[simp] theorem takeDoze_quiet (p : Port) (w : WakeSet) (k : Nat) (s : State) : (takeDoze p w k s).quiet = s.quiet := by
  simp only [takeDoze]; repeat' split
  all_goals simp
@[simp] theorem takeDoze_loader (p : Port) (w : WakeSet) (k : Nat) (s : State) : (takeDoze p w k s).loader = s.loader := by
  simp only [takeDoze]; repeat' split
  all_goals simp
@[simp] theorem takeDoze_stamp (p : Port) (w : WakeSet) (k : Nat) (s : State) : (takeDoze p w k s).stamp = s.stamp := by
  simp only [takeDoze]; repeat' split
  all_goals simp
@[simp] theorem takeDoze_resetting (p : Port) (w : WakeSet) (k : Nat) (s : State) : (takeDoze p w k s).resetting = s.resetting := by
  simp only [takeDoze]; repeat' split
  all_goals simp
@[simp] theorem takeDoze_nextCandidacy (p : Port) (w : WakeSet) (k : Nat) (s : State) : (takeDoze p w k s).nextCandidacy = s.nextCandidacy := by
  simp only [takeDoze]; repeat' split
  all_goals simp
@[simp] theorem takeDoze_freeIndex (p : Port) (w : WakeSet) (k : Nat) (s : State) : (takeDoze p w k s).freeIndex = s.freeIndex := by
  simp only [takeDoze]; repeat' split
  all_goals simp
@[simp] theorem takeDoze_pending (p : Port) (w : WakeSet) (k : Nat) (s : State) : (takeDoze p w k s).pending = s.pending := by
  simp only [takeDoze]; repeat' split
  all_goals simp

/-! ## `restoreDefaults` -/

@[simp] theorem restoreDefaults_routes (p : Port) (s : State) : (restoreDefaults p s).routes = s.routes := rfl
@[simp] theorem restoreDefaults_tx (p : Port) (s : State) : (restoreDefaults p s).tx = s.tx := rfl
@[simp] theorem restoreDefaults_slots (p : Port) (s : State) : (restoreDefaults p s).slots = s.slots := rfl
@[simp] theorem restoreDefaults_line (p : Port) (s : State) : (restoreDefaults p s).line = s.line := rfl
@[simp] theorem restoreDefaults_detector (p : Port) (s : State) : (restoreDefaults p s).detector = s.detector := rfl
@[simp] theorem restoreDefaults_quiet (p : Port) (s : State) : (restoreDefaults p s).quiet = s.quiet := rfl
@[simp] theorem restoreDefaults_loader (p : Port) (s : State) : (restoreDefaults p s).loader = s.loader := rfl
@[simp] theorem restoreDefaults_stamp (p : Port) (s : State) : (restoreDefaults p s).stamp = s.stamp := rfl
@[simp] theorem restoreDefaults_resetting (p : Port) (s : State) : (restoreDefaults p s).resetting = s.resetting := rfl
@[simp] theorem restoreDefaults_nextCandidacy (p : Port) (s : State) : (restoreDefaults p s).nextCandidacy = s.nextCandidacy := rfl
@[simp] theorem restoreDefaults_freeIndex (p : Port) (s : State) : (restoreDefaults p s).freeIndex = s.freeIndex := rfl
@[simp] theorem restoreDefaults_pending (p : Port) (s : State) : (restoreDefaults p s).pending = s.pending := rfl

/-! ## `haltSlots` -/

@[simp] theorem haltSlots_ports (s : State) : (haltSlots s).ports = s.ports := rfl
@[simp] theorem haltSlots_windows (s : State) : (haltSlots s).windows = s.windows := rfl
@[simp] theorem haltSlots_routes (s : State) : (haltSlots s).routes = s.routes := rfl
@[simp] theorem haltSlots_rx (s : State) : (haltSlots s).rx = s.rx := rfl
@[simp] theorem haltSlots_tx (s : State) : (haltSlots s).tx = s.tx := rfl
@[simp] theorem haltSlots_line (s : State) : (haltSlots s).line = s.line := rfl
@[simp] theorem haltSlots_detector (s : State) : (haltSlots s).detector = s.detector := rfl
@[simp] theorem haltSlots_quiet (s : State) : (haltSlots s).quiet = s.quiet := rfl
@[simp] theorem haltSlots_loader (s : State) : (haltSlots s).loader = s.loader := rfl
@[simp] theorem haltSlots_stamp (s : State) : (haltSlots s).stamp = s.stamp := rfl
@[simp] theorem haltSlots_resetting (s : State) : (haltSlots s).resetting = s.resetting := rfl
@[simp] theorem haltSlots_nextCandidacy (s : State) : (haltSlots s).nextCandidacy = s.nextCandidacy := rfl
@[simp] theorem haltSlots_freeIndex (s : State) : (haltSlots s).freeIndex = s.freeIndex := rfl
@[simp] theorem haltSlots_pending (s : State) : (haltSlots s).pending = s.pending := rfl

/-! ## `setLatch` -/

@[simp] theorem setLatch_windows (s : State) : (setLatch s).windows = s.windows := by simp [setLatch]
@[simp] theorem setLatch_routes (s : State) : (setLatch s).routes = s.routes := by simp [setLatch]
@[simp] theorem setLatch_rx (s : State) : (setLatch s).rx = s.rx := by simp [setLatch]
@[simp] theorem setLatch_tx (s : State) : (setLatch s).tx = s.tx := by simp [setLatch]
@[simp] theorem setLatch_detector (s : State) : (setLatch s).detector = s.detector := by simp [setLatch]
@[simp] theorem setLatch_loader (s : State) : (setLatch s).loader = s.loader := by simp [setLatch]
@[simp] theorem setLatch_stamp (s : State) : (setLatch s).stamp = s.stamp := by simp [setLatch]
@[simp] theorem setLatch_resetting (s : State) : (setLatch s).resetting = s.resetting := by simp [setLatch]
@[simp] theorem setLatch_nextCandidacy (s : State) : (setLatch s).nextCandidacy = s.nextCandidacy := by simp [setLatch]
@[simp] theorem setLatch_freeIndex (s : State) : (setLatch s).freeIndex = s.freeIndex := by simp [setLatch]
@[simp] theorem setLatch_pending (s : State) : (setLatch s).pending = s.pending := by simp [setLatch]

/-! ## `installPorts` -/

@[simp] theorem installPorts_routes (d : Quad PortDefaults) (s : State) : (installPorts d s).routes = s.routes := rfl
@[simp] theorem installPorts_tx (d : Quad PortDefaults) (s : State) : (installPorts d s).tx = s.tx := rfl
@[simp] theorem installPorts_slots (d : Quad PortDefaults) (s : State) : (installPorts d s).slots = s.slots := rfl
@[simp] theorem installPorts_line (d : Quad PortDefaults) (s : State) : (installPorts d s).line = s.line := rfl
@[simp] theorem installPorts_detector (d : Quad PortDefaults) (s : State) : (installPorts d s).detector = s.detector := rfl
@[simp] theorem installPorts_quiet (d : Quad PortDefaults) (s : State) : (installPorts d s).quiet = s.quiet := rfl
@[simp] theorem installPorts_loader (d : Quad PortDefaults) (s : State) : (installPorts d s).loader = s.loader := rfl
@[simp] theorem installPorts_stamp (d : Quad PortDefaults) (s : State) : (installPorts d s).stamp = s.stamp := rfl
@[simp] theorem installPorts_resetting (d : Quad PortDefaults) (s : State) : (installPorts d s).resetting = s.resetting := rfl
@[simp] theorem installPorts_nextCandidacy (d : Quad PortDefaults) (s : State) : (installPorts d s).nextCandidacy = s.nextCandidacy := rfl
@[simp] theorem installPorts_freeIndex (d : Quad PortDefaults) (s : State) : (installPorts d s).freeIndex = s.freeIndex := rfl
@[simp] theorem installPorts_pending (d : Quad PortDefaults) (s : State) : (installPorts d s).pending = s.pending := rfl

/-! ## `becomeReady` -/

@[simp] theorem becomeReady_ports (f : Bool) (s : State) : (becomeReady f s).ports = s.ports := rfl
@[simp] theorem becomeReady_windows (f : Bool) (s : State) : (becomeReady f s).windows = s.windows := rfl
@[simp] theorem becomeReady_routes (f : Bool) (s : State) : (becomeReady f s).routes = s.routes := rfl
@[simp] theorem becomeReady_rx (f : Bool) (s : State) : (becomeReady f s).rx = s.rx := rfl
@[simp] theorem becomeReady_tx (f : Bool) (s : State) : (becomeReady f s).tx = s.tx := rfl
@[simp] theorem becomeReady_slots (f : Bool) (s : State) : (becomeReady f s).slots = s.slots := rfl
@[simp] theorem becomeReady_line (f : Bool) (s : State) : (becomeReady f s).line = s.line := rfl
@[simp] theorem becomeReady_detector (f : Bool) (s : State) : (becomeReady f s).detector = s.detector := rfl
@[simp] theorem becomeReady_quiet (f : Bool) (s : State) : (becomeReady f s).quiet = s.quiet := rfl
@[simp] theorem becomeReady_stamp (f : Bool) (s : State) : (becomeReady f s).stamp = s.stamp := rfl
@[simp] theorem becomeReady_resetting (f : Bool) (s : State) : (becomeReady f s).resetting = s.resetting := rfl
@[simp] theorem becomeReady_nextCandidacy (f : Bool) (s : State) : (becomeReady f s).nextCandidacy = s.nextCandidacy := rfl
@[simp] theorem becomeReady_freeIndex (f : Bool) (s : State) : (becomeReady f s).freeIndex = s.freeIndex := rfl
@[simp] theorem becomeReady_pending (f : Bool) (s : State) : (becomeReady f s).pending = s.pending := rfl

/-! ## `installBuiltIn` -/

@[simp] theorem installBuiltIn_routes (f : Bool) (s : State) : (installBuiltIn f s).routes = s.routes := rfl
@[simp] theorem installBuiltIn_tx (f : Bool) (s : State) : (installBuiltIn f s).tx = s.tx := rfl
@[simp] theorem installBuiltIn_slots (f : Bool) (s : State) : (installBuiltIn f s).slots = s.slots := rfl
@[simp] theorem installBuiltIn_detector (f : Bool) (s : State) : (installBuiltIn f s).detector = s.detector := rfl
@[simp] theorem installBuiltIn_stamp (f : Bool) (s : State) : (installBuiltIn f s).stamp = s.stamp := rfl
@[simp] theorem installBuiltIn_resetting (f : Bool) (s : State) : (installBuiltIn f s).resetting = s.resetting := rfl
@[simp] theorem installBuiltIn_nextCandidacy (f : Bool) (s : State) : (installBuiltIn f s).nextCandidacy = s.nextCandidacy := rfl
@[simp] theorem installBuiltIn_freeIndex (f : Bool) (s : State) : (installBuiltIn f s).freeIndex = s.freeIndex := rfl
@[simp] theorem installBuiltIn_pending (f : Bool) (s : State) : (installBuiltIn f s).pending = s.pending := rfl

/-! ## `installImage` -/

@[simp] theorem installImage_routes (i : Image) (s : State) : (installImage i s).routes = s.routes := by
  simp only [installImage]; repeat' split
  all_goals simp
@[simp] theorem installImage_tx (i : Image) (s : State) : (installImage i s).tx = s.tx := by
  simp only [installImage]; repeat' split
  all_goals simp
@[simp] theorem installImage_slots (i : Image) (s : State) : (installImage i s).slots = s.slots := by
  simp only [installImage]; repeat' split
  all_goals simp
@[simp] theorem installImage_detector (i : Image) (s : State) : (installImage i s).detector = s.detector := by
  simp only [installImage]; repeat' split
  all_goals simp
@[simp] theorem installImage_stamp (i : Image) (s : State) : (installImage i s).stamp = s.stamp := by
  simp only [installImage]; repeat' split
  all_goals simp
@[simp] theorem installImage_resetting (i : Image) (s : State) : (installImage i s).resetting = s.resetting := by
  simp only [installImage]; repeat' split
  all_goals simp
@[simp] theorem installImage_nextCandidacy (i : Image) (s : State) : (installImage i s).nextCandidacy = s.nextCandidacy := by
  simp only [installImage]; repeat' split
  all_goals simp
@[simp] theorem installImage_freeIndex (i : Image) (s : State) : (installImage i s).freeIndex = s.freeIndex := by
  simp only [installImage]; repeat' split
  all_goals simp
@[simp] theorem installImage_pending (i : Image) (s : State) : (installImage i s).pending = s.pending := by
  simp only [installImage]; repeat' split
  all_goals simp

/-! ## `dwellExpiry` -/

@[simp] theorem dwellExpiry_ports (s : State) : (dwellExpiry s).ports = s.ports := rfl
@[simp] theorem dwellExpiry_windows (s : State) : (dwellExpiry s).windows = s.windows := rfl
@[simp] theorem dwellExpiry_routes (s : State) : (dwellExpiry s).routes = s.routes := rfl
@[simp] theorem dwellExpiry_rx (s : State) : (dwellExpiry s).rx = s.rx := rfl
@[simp] theorem dwellExpiry_tx (s : State) : (dwellExpiry s).tx = s.tx := rfl
@[simp] theorem dwellExpiry_slots (s : State) : (dwellExpiry s).slots = s.slots := rfl
@[simp] theorem dwellExpiry_detector (s : State) : (dwellExpiry s).detector = s.detector := rfl
@[simp] theorem dwellExpiry_quiet (s : State) : (dwellExpiry s).quiet = s.quiet := rfl
@[simp] theorem dwellExpiry_loader (s : State) : (dwellExpiry s).loader = s.loader := rfl
@[simp] theorem dwellExpiry_stamp (s : State) : (dwellExpiry s).stamp = s.stamp := rfl
@[simp] theorem dwellExpiry_resetting (s : State) : (dwellExpiry s).resetting = s.resetting := rfl
@[simp] theorem dwellExpiry_nextCandidacy (s : State) : (dwellExpiry s).nextCandidacy = s.nextCandidacy := rfl
@[simp] theorem dwellExpiry_freeIndex (s : State) : (dwellExpiry s).freeIndex = s.freeIndex := rfl
@[simp] theorem dwellExpiry_pending (s : State) : (dwellExpiry s).pending = s.pending := rfl

/-! ## `silenceExpiry` -/

@[simp] theorem silenceExpiry_windows (s : State) : (silenceExpiry s).windows = s.windows := rfl
@[simp] theorem silenceExpiry_routes (s : State) : (silenceExpiry s).routes = s.routes := rfl
@[simp] theorem silenceExpiry_rx (s : State) : (silenceExpiry s).rx = s.rx := rfl
@[simp] theorem silenceExpiry_tx (s : State) : (silenceExpiry s).tx = s.tx := rfl
@[simp] theorem silenceExpiry_slots (s : State) : (silenceExpiry s).slots = s.slots := rfl
@[simp] theorem silenceExpiry_detector (s : State) : (silenceExpiry s).detector = s.detector := rfl
@[simp] theorem silenceExpiry_quiet (s : State) : (silenceExpiry s).quiet = s.quiet := rfl
@[simp] theorem silenceExpiry_loader (s : State) : (silenceExpiry s).loader = s.loader := rfl
@[simp] theorem silenceExpiry_stamp (s : State) : (silenceExpiry s).stamp = s.stamp := rfl
@[simp] theorem silenceExpiry_resetting (s : State) : (silenceExpiry s).resetting = s.resetting := rfl
@[simp] theorem silenceExpiry_nextCandidacy (s : State) : (silenceExpiry s).nextCandidacy = s.nextCandidacy := rfl
@[simp] theorem silenceExpiry_freeIndex (s : State) : (silenceExpiry s).freeIndex = s.freeIndex := rfl
@[simp] theorem silenceExpiry_pending (s : State) : (silenceExpiry s).pending = s.pending := rfl

/-! ## `wakeTimerExpiry` -/

@[simp] theorem wakeTimerExpiry_windows (p : Port) (s : State) : (wakeTimerExpiry p s).windows = s.windows := rfl
@[simp] theorem wakeTimerExpiry_routes (p : Port) (s : State) : (wakeTimerExpiry p s).routes = s.routes := rfl
@[simp] theorem wakeTimerExpiry_rx (p : Port) (s : State) : (wakeTimerExpiry p s).rx = s.rx := rfl
@[simp] theorem wakeTimerExpiry_tx (p : Port) (s : State) : (wakeTimerExpiry p s).tx = s.tx := rfl
@[simp] theorem wakeTimerExpiry_slots (p : Port) (s : State) : (wakeTimerExpiry p s).slots = s.slots := rfl
@[simp] theorem wakeTimerExpiry_line (p : Port) (s : State) : (wakeTimerExpiry p s).line = s.line := rfl
@[simp] theorem wakeTimerExpiry_detector (p : Port) (s : State) : (wakeTimerExpiry p s).detector = s.detector := rfl
@[simp] theorem wakeTimerExpiry_quiet (p : Port) (s : State) : (wakeTimerExpiry p s).quiet = s.quiet := rfl
@[simp] theorem wakeTimerExpiry_loader (p : Port) (s : State) : (wakeTimerExpiry p s).loader = s.loader := rfl
@[simp] theorem wakeTimerExpiry_stamp (p : Port) (s : State) : (wakeTimerExpiry p s).stamp = s.stamp := rfl
@[simp] theorem wakeTimerExpiry_resetting (p : Port) (s : State) : (wakeTimerExpiry p s).resetting = s.resetting := rfl
@[simp] theorem wakeTimerExpiry_nextCandidacy (p : Port) (s : State) : (wakeTimerExpiry p s).nextCandidacy = s.nextCandidacy := rfl
@[simp] theorem wakeTimerExpiry_freeIndex (p : Port) (s : State) : (wakeTimerExpiry p s).freeIndex = s.freeIndex := rfl
@[simp] theorem wakeTimerExpiry_pending (p : Port) (s : State) : (wakeTimerExpiry p s).pending = s.pending := rfl

/-! ## `advance` -/

@[simp] theorem advance_windows (s : State) : (advance s).windows = s.windows := rfl
@[simp] theorem advance_routes (s : State) : (advance s).routes = s.routes := rfl
@[simp] theorem advance_rx (s : State) : (advance s).rx = s.rx := rfl
@[simp] theorem advance_tx (s : State) : (advance s).tx = s.tx := rfl
@[simp] theorem advance_quiet (s : State) : (advance s).quiet = s.quiet := rfl
@[simp] theorem advance_resetting (s : State) : (advance s).resetting = s.resetting := rfl
@[simp] theorem advance_nextCandidacy (s : State) : (advance s).nextCandidacy = s.nextCandidacy := rfl
@[simp] theorem advance_freeIndex (s : State) : (advance s).freeIndex = s.freeIndex := rfl
@[simp] theorem advance_pending (s : State) : (advance s).pending = s.pending := rfl

end Sys2Proof.Machine
end

