-- ==== Sys2Proof/Laws/Effects.lean ====
section
/-! SUPPORT. Reading a slot back, and one lemma for each operation over the slots, the queues and the attempts that says what
it may do to port units and to the line unit. -/

namespace Sys2Proof.Machine

/-! ## Reading a slot -/

theorem State.slot_eq_some {s : State} {n : Nat} {sl : Slot} : s.slot n = some sl ↔ s.slots[n]? = some (some sl) := by
  simp only [State.slot, List.getD_eq_getElem?_getD]
  cases s.slots[n]? <;> simp

theorem State.slot_lt {s : State} {n : Nat} {sl : Slot} (h : s.slot n = some sl) : n < s.slots.length := by
  by_contra hge
  simp [State.slot, List.getD_eq_getElem?_getD, List.getElem?_eq_none (Nat.le_of_not_lt hge)] at h

theorem State.slot_mem {s : State} {n : Nat} {sl : Slot} (h : s.slot n = some sl) : some sl ∈ s.slots :=
  List.mem_of_getElem? (State.slot_eq_some.1 h)

theorem State.setSlot_slot_same {s : State} {n : Nat} (h : n < s.slots.length) (x : Option Slot) :
    (s.setSlot n x).slot n = x := by
  simp [State.slot, State.setSlot, List.getD_eq_getElem?_getD, h]

theorem State.setSlot_slot_ne (s : State) {m n : Nat} (x : Option Slot) (h : m ≠ n) :
    (s.setSlot n x).slot m = s.slot m := by
  simp [State.slot, State.setSlot, List.getD_eq_getElem?_getD, List.getElem?_set_ne (Ne.symm h)]

@[simp] theorem State.setSlot_setSlot (s : State) (n : Nat) (x y : Option Slot) :
    (s.setSlot n x).setSlot n y = s.setSlot n y := by simp [State.setSlot]

theorem State.modSlot_of_some {s : State} {n : Nat} {sl : Slot} (h : s.slot n = some sl) (f : Slot → Slot) :
    s.modSlot n f = s.setSlot n (some (f sl)) := by simp [State.modSlot, h]

theorem State.modSlot_of_none {s : State} {n : Nat} (h : s.slot n = none) (f : Slot → Slot) : s.modSlot n f = s := by
  simp [State.modSlot, h]

@[simp] theorem cut_slot (src : Source) (s : State) (n : Nat) : (cut src s).slot n = s.slot n := by
  simp [State.slot]

@[simp] theorem State.raise_slot (s : State) (p : Port) (f : EventFlag) (n : Nat) : (s.raise p f).slot n = s.slot n := rfl

@[simp] theorem State.modSlot_length (s : State) (n : Nat) (f : Slot → Slot) :
    (s.modSlot n f).slots.length = s.slots.length := by
  unfold State.modSlot; split <;> simp

/-! ## Operations on every slot -/

@[simp] theorem Slot.anchored_state (sl : Slot) (st : SlotState) : (sl.anchored st).state = st := rfl
@[simp] theorem Slot.anchored_nextExpiry (sl : Slot) (st : SlotState) : (sl.anchored st).nextExpiry = some sl.offset := rfl
@[simp] theorem Slot.anchored_owner (sl : Slot) (st : SlotState) : (sl.anchored st).owner = sl.owner := rfl
@[simp] theorem Slot.anchored_lineLabel (sl : Slot) (st : SlotState) : (sl.anchored st).lineLabel = sl.lineLabel := rfl
@[simp] theorem Slot.anchored_due (sl : Slot) (st : SlotState) : (sl.anchored st).due = sl.due := rfl

theorem State.mapSlots_slot (s : State) (f : Slot → Slot) (n : Nat) :
    ({ s with slots := s.slots.map (Option.map f) } : State).slot n = (s.slot n).map f := by
  simp only [State.slot, List.getD_eq_getElem?_getD, List.getElem?_map]; cases s.slots[n]? <;> rfl

@[simp] theorem triggerEdge_slot (pin : TrigPin) (e : Sense) (s : State) (n : Nat) :
    (triggerEdge pin e s).slot n = (s.slot n).map (Slot.takeEdge pin e) := s.mapSlots_slot _ n

@[simp] theorem haltSlots_slot (s : State) (n : Nat) : (haltSlots s).slot n = (s.slot n).map Slot.halt := s.mapSlots_slot _ n

@[simp] theorem releaseSlots_slot (s : State) (n : Nat) : (releaseSlots s).slot n = (s.slot n).map Slot.release :=
  s.mapSlots_slot _ n

/-! ## The cut -/

/-- A cut changes the line unit in one way alone: the record in flight loses its source. -/
theorem cut_line (src : Source) (s : State) :
    (cut src s).line = s.line ∨
      ∃ r, s.line.inFlight = some r ∧ r.source = src ∧
        (cut src s).line = { s.line with inFlight := some { r with source := .none } } := by
  unfold cut
  split
  · split
    · rename_i r h hs; exact .inr ⟨r, h, hs, rfl⟩
    · exact .inl rfl
  · exact .inl rfl

/-! ## Flags gained -/

/-- Every port unit is as before but for flags gained, and a DETACHED one is as before. -/
def FlagsGained (s t : State) : Prop :=
  ∀ q, ∃ fl, t.unit q = { s.unit q with flags := fl } ∧ (s.unit q).flags &&& fl = (s.unit q).flags ∧
    ((s.unit q).state = .detached → fl = (s.unit q).flags)

theorem FlagsGained.refl (s : State) : FlagsGained s s := fun q => ⟨(s.unit q).flags, rfl, by simp, fun _ => rfl⟩

theorem FlagsGained.of_ports {s t : State} (h : t.ports = s.ports) : FlagsGained s t :=
  fun q => ⟨(s.unit q).flags, by simp [State.unit, h], by simp, fun _ => rfl⟩

theorem FlagsGained.trans {s t u : State} (h : FlagsGained s t) (k : FlagsGained t u) : FlagsGained s u := by
  intro q
  obtain ⟨a, ha, hsub, hdet⟩ := h q
  obtain ⟨b, hb, kub, kdet⟩ := k q
  refine ⟨b, by rw [hb, ha], ?_, ?_⟩
  · rw [ha] at kub
    calc (s.unit q).flags &&& b = ((s.unit q).flags &&& a) &&& b := by rw [hsub]
      _ = (s.unit q).flags &&& (a &&& b) := by rw [BitVec.and_assoc]
      _ = (s.unit q).flags &&& a := by rw [show a &&& b = a from kub]
      _ = (s.unit q).flags := hsub
  · intro hd
    have hd' : (t.unit q).state = .detached := by rw [ha]; exact hd
    rw [kdet hd', ha]; exact hdet hd

/-- A port's state is never among what such an operation changes. -/
theorem FlagsGained.state {s t : State} (h : FlagsGained s t) (q : Port) : (t.unit q).state = (s.unit q).state := by
  obtain ⟨fl, e, -, -⟩ := h q; rw [e]

theorem PortUnit.raise_gains (u : PortUnit) (f : EventFlag) :
    ∃ fl, u.raise f = { u with flags := fl } ∧ u.flags &&& fl = u.flags ∧ (u.state = .detached → fl = u.flags) := by
  by_cases h : u.state = .detached
  · exact ⟨u.flags, by rw [PortUnit.raise, if_pos h], by simp, fun _ => rfl⟩
  · refine ⟨u.flags ||| f.mask, by simp [PortUnit.raise, h], ?_, fun hd => absurd hd h⟩
    ext i hi
    simp only [BitVec.getElem_and, BitVec.getElem_or]
    cases u.flags[i] <;> simp

theorem State.raise_flagsGained (s : State) (p : Port) (f : EventFlag) : FlagsGained s (s.raise p f) := by
  intro q
  by_cases h : q = p
  · subst h; rw [State.raise_unit_same]; exact PortUnit.raise_gains _ f
  · rw [State.raise_unit_ne s p f h]; exact FlagsGained.refl s q

theorem State.raiseAll_flagsGained (s : State) (f : EventFlag) : FlagsGained s (s.raiseAll f) := by
  intro q; rw [State.raiseAll_unit]; exact PortUnit.raise_gains _ f

theorem State.raiseActive_flagsGained (s : State) (f : EventFlag) : FlagsGained s (s.raiseActive f) := by
  intro q; rw [State.raiseActive_unit]
  split
  · exact PortUnit.raise_gains _ f
  · exact FlagsGained.refl s q

theorem State.raiseActiveExcept_flagsGained (s : State) (p : Port) (f : EventFlag) :
    FlagsGained s (s.raiseActiveExcept p f) := by
  intro q; rw [State.raiseActiveExcept_unit]
  split
  · exact PortUnit.raise_gains _ f
  · exact FlagsGained.refl s q

/-! ## What an operation over the slots does -/

/-- Port units gain flags alone, the line unit's record in flight may lose its source alone, and the number of slots stays. -/
structure SlotEffect (s t : State) : Prop where
  units : FlagsGained s t
  line : t.line = { s.line with inFlight := t.line.inFlight }
  flight : t.line.inFlight.isSome = s.line.inFlight.isSome
  length : t.slots.length = s.slots.length

theorem SlotEffect.refl (s : State) : SlotEffect s s := ⟨FlagsGained.refl s, rfl, rfl, rfl⟩

theorem SlotEffect.trans {s t u : State} (h : SlotEffect s t) (k : SlotEffect t u) : SlotEffect s u :=
  ⟨h.units.trans k.units, by rw [k.line, h.line], k.flight.trans h.flight, k.length.trans h.length⟩

theorem cut_effect (src : Source) (s : State) : SlotEffect s (cut src s) := by
  refine ⟨.of_ports (by simp), ?_, ?_, by simp⟩
  · rcases cut_line src s with h | ⟨r, -, -, h⟩ <;> rw [h]
  · rcases cut_line src s with h | ⟨r, hr, -, h⟩ <;> rw [h]
    simp [hr]

theorem State.raise_effect (s : State) (p : Port) (f : EventFlag) : SlotEffect s (s.raise p f) :=
  ⟨s.raise_flagsGained p f, rfl, rfl, rfl⟩

theorem State.setSlot_effect (s : State) (n : Nat) (x : Option Slot) : SlotEffect s (s.setSlot n x) :=
  ⟨.of_ports rfl, rfl, rfl, by simp⟩

theorem State.modSlot_effect (s : State) (n : Nat) (f : Slot → Slot) : SlotEffect s (s.modSlot n f) := by
  unfold State.modSlot; split
  · exact s.setSlot_effect n _
  · exact .refl s

theorem State.bumpCandidacy_effect (s : State) : SlotEffect s s.bumpCandidacy := ⟨.of_ports rfl, rfl, rfl, rfl⟩

theorem withdrawDue_effect (n : Nat) (s : State) : SlotEffect s (withdrawDue n s) :=
  (cut_effect _ s).trans (State.modSlot_effect _ _ _)

theorem publish_effect (n : Nat) (payload : List Byte) (s : State) : SlotEffect s (publish n payload s) := by
  simp only [publish]
  split
  · exact .refl s
  · split
    · exact (s.setSlot_effect _ _).trans (State.bumpCandidacy_effect _)
    · exact (((cut_effect _ s).trans (State.setSlot_effect _ _ _)).trans (State.bumpCandidacy_effect _)).trans
        (State.raise_effect _ _ _)

theorem cover_effect (n : Nat) (sl : Slot) (si : StandIn) (s : State) : SlotEffect s (cover n sl si s) := by
  simp only [cover]
  split
  · exact ((((s.raise_effect _ _).trans (State.setSlot_effect _ _ _)).trans (State.raise_effect _ _ _)).trans
      (State.raise_effect _ _ _)).trans (publish_effect _ _ _)
  · exact ((s.raise_effect _ _).trans (State.setSlot_effect _ _ _)).trans (publish_effect _ _ _)

theorem staleExpiry_effect (n : Nat) (sl : Slot) (s : State) : SlotEffect s (staleExpiry n sl s) := by
  simp only [staleExpiry]
  split
  · exact (s.setSlot_effect _ _).trans (State.raise_effect _ _ _)
  · exact ((s.setSlot_effect _ _).trans (State.raise_effect _ _ _)).trans (cover_effect _ _ _ _)

theorem judgeExpiry_effect (n : Nat) (sl : Slot) (s : State) : SlotEffect s (judgeExpiry n sl s) := by
  simp only [judgeExpiry]
  split
  · exact (s.setSlot_effect _ _).trans (publish_effect _ _ _)
  · split
    · exact staleExpiry_effect _ _ _
    · exact (s.setSlot_effect _ _).trans (publish_effect _ _ _)

/-- All that an expiry may do outside its own slot. -/
theorem expire_effect (n : Nat) (s : State) : SlotEffect s (expire n s) := by
  simp only [expire]
  split
  · exact .refl s
  · exact (judgeExpiry_effect _ _ _).trans (State.modSlot_effect _ _ _)

/-- An operation over every slot does no more than its steps do. -/
theorem forSlots_effect {f : Nat → State → State} (h : ∀ n t, SlotEffect t (f n t)) (s : State) :
    SlotEffect s (forSlots f s) :=
  forSlots_keeps (I := fun t => SlotEffect s t) (fun n t ht => ht.trans (h n t)) (.refl s)

theorem triggerEdge_effect (pin : TrigPin) (e : Sense) (s : State) : SlotEffect s (triggerEdge pin e s) :=
  ⟨.of_ports rfl, rfl, rfl, by simp [triggerEdge]⟩

theorem releaseSlots_effect (s : State) : SlotEffect s (releaseSlots s) := ⟨.of_ports rfl, rfl, rfl, by simp [releaseSlots]⟩

theorem answerQuery_effect (l : Label) (s : State) : SlotEffect s (answerQuery l s) := by
  simp only [answerQuery]
  split
  · exact .refl s
  · split
    · exact .refl s
    · split
      · exact publish_effect _ _ _
      · exact .refl s

theorem stopNow_effect (n : Nat) (s : State) : SlotEffect s (stopNow n s) :=
  (withdrawDue_effect n s).trans (State.modSlot_effect _ _ _)

theorem removeSlot_effect (n : Nat) (s : State) : SlotEffect s (removeSlot n s) := by
  simp only [removeSlot]
  split
  · exact .refl s
  · split
    · exact ((withdrawDue_effect n s).trans (State.setSlot_effect _ _ _)).trans (State.raise_effect _ _ _)
    · exact (withdrawDue_effect n s).trans (State.setSlot_effect _ _ _)

theorem disposeSlot_effect (p : Port) (n : Nat) (s : State) : SlotEffect s (disposeSlot p n s) := by
  simp only [disposeSlot]
  split
  · exact .refl s
  · split
    · split
      · exact (s.setSlot_effect _ _).trans (State.raise_effect _ _ _)
      · exact removeSlot_effect _ _
    · exact .refl s

theorem dropStandIn_effect (p : Port) (n : Nat) (s : State) : SlotEffect s (dropStandIn p n s) := by
  simp only [dropStandIn]
  split
  · exact .refl s
  · split
    · exact .refl s
    · split
      · exact (s.setSlot_effect _ _).trans (State.raise_effect _ _ _)
      · exact .refl s

/-! ## The port units under the other operations -/

theorem dueError_effect (n : Nat) (s : State) : SlotEffect s (dueError n s) := by
  simp only [dueError]
  split
  · exact .refl s
  · split
    · exact .refl s
    · split
      · exact s.setSlot_effect _ _
      · exact (s.setSlot_effect _ _).trans (State.raise_effect _ _ _)

theorem admitCopy_flagsGained (p : Port) (r : RxRecord) (s : State) : FlagsGained s (admitCopy p r s) := by
  simp only [admitCopy]
  split
  · split
    · exact (FlagsGained.of_ports rfl).trans (State.raise_flagsGained _ _ _)
    · exact .of_ports rfl
  · split
    · exact (FlagsGained.of_ports rfl).trans (State.raise_flagsGained _ _ _)
    · exact State.raise_flagsGained _ _ _

theorem admitOpt_flagsGained (p : Port) (r : Option RxRecord) (s : State) : FlagsGained s (admitOpt p r s) := by
  cases r with
  | none => exact .refl s
  | some x => exact admitCopy_flagsGained p x s

theorem admitGroup_flagsGained (a b c d : Option RxRecord) (s : State) : FlagsGained s (admitGroup a b c d s) :=
  (((admitOpt_flagsGained _ _ _).trans (admitOpt_flagsGained _ _ _)).trans (admitOpt_flagsGained _ _ _)).trans
    (admitOpt_flagsGained _ _ _)

theorem headSent_flagsGained (p : Port) (s : State) : FlagsGained s (headSent p s) := by
  unfold headSent; split
  · exact .refl s
  · exact (FlagsGained.of_ports (by simp)).trans (State.raise_flagsGained _ _ _)

theorem headError_flagsGained (p : Port) (s : State) : FlagsGained s (headError p s) := by
  simp only [headError]
  split
  · exact .refl s
  · split
    · exact .of_ports rfl
    · exact (FlagsGained.of_ports (by simp)).trans (State.raise_flagsGained _ _ _)

theorem reportSent_flagsGained (src : Source) (s : State) : FlagsGained s (reportSent src s) := by
  cases src with
  | queueHead p => exact headSent_flagsGained p s
  | dueEntry n => exact .of_ports (by simp [reportSent])
  | none => exact .refl s

theorem reportError_flagsGained (src : Source) (s : State) : FlagsGained s (reportError src s) := by
  cases src with
  | queueHead p => exact headError_flagsGained p s
  | dueEntry n => exact (dueError_effect n s).units
  | none => exact .refl s

theorem releaseLease_flagsGained (p : Port) (s : State) : FlagsGained s (releaseLease p s) := by
  unfold releaseLease; split
  · exact (FlagsGained.of_ports rfl).trans (State.raiseActiveExcept_flagsGained _ _ _)
  · exact .refl s

/-! ## One step, and the expiries a tick settles -/

/-- All that a step can be: idling on an empty queue, or the command at the front executed with the queue's rest. -/
theorem step_cases {s t : State} (h : step s = .next t) :
    (s.pending = [] ∧ t = s) ∨ ∃ c rest, s.pending = c :: rest ∧ exec c { s with pending := rest } = .next t := by
  unfold step at h
  split at h
  · rename_i hp; exact .inl ⟨hp, by injection h with h; exact h.symm⟩
  · rename_i c rest hp; exact .inr ⟨c, rest, hp, h⟩

/-- What every expiry keeps, the settling before a tick keeps. -/
theorem settle_keeps {I : State → Prop} (hexp : ∀ e t, I t → I (takeExpiry e t)) (hdraw : ∀ t, I t → I t.drawn)
    (fuel : Nat) {s : State} (hs : I s) : I (settle fuel s) := by
  induction fuel generalizing s with
  | zero => exact hs
  | succ k ih =>
    simp only [settle]
    split
    · exact hs
    · exact ih (hexp _ _ hs)
    · exact ih (hexp _ _ (hdraw _ hs))

end Sys2Proof.Machine
end

