-- ==== Sys2Proof/Tests/Slice0.lean ====
section
/-! SUPPORT. Small tests: the well-formedness checks, one step of each command on a small state, and for each statement with
hypotheses a state and operands that meet them. -/

namespace Sys2Proof.Tests

open Sys2Proof.Machine

set_option maxRecDepth 100000

/-! ## Small states -/

/-- A hub after reset with port A ACTIVE. -/
def hub : State := State.reset.modUnit .a (fun u => { u with state := .active, detachCause := .none })

/-- Ports A and B ACTIVE. -/
def two : State := hub.modUnit .b (fun u => { u with state := .active, detachCause := .none })

/-- Ports A and B ACTIVE, A holding the lease. -/
def leased : State := two.modLine (fun u => { u with lease := some .a })

/-- The line SYNCED in FIXED, A holding the lease. -/
def onLine : State := leased.modLine (fun u => ({ u with rateMode := .fixed }).started)

/-- The line searching. -/
def searching : State := leased.modLine LineUnit.started

/-- A QUERY waiting in port A's transmit queue. -/
def query : TxEntry := ⟨.query, 5, 5, [0xAB], 0, 0⟩

def telegram : Telegram := ⟨.query, 5, [0xAB]⟩

/-- The queue head of port A waiting on a SYNCED line. -/
def waiting : State := onLine.setTx .a ⟨[query], some 0⟩

/-- A transmission of the telegram in flight for a source. -/
def flying (src : Source) : State := waiting.modLine (fun u => { u with inFlight := some ⟨telegram, src, .a⟩ })

/-- A slot of port A under label 7, period 100, offset 20. -/
def slot : Slot := Slot.created .a 7 7 100 20 [1, 2]

/-- The slot in state `st`, alone in the hub of `onLine`. -/
def withSlot (sl : Slot) : State := onLine.setSlot 0 (some sl)

def running : Slot := { slot with state := .running, nextExpiry := some 0 }

/-- A stand-in of port B. -/
def standIn : StandIn := ⟨.b, [9], 0⟩

/-- A record in a receive queue. -/
def record : RxRecord := ⟨.data, 5, 5, [3], 0, 0, false, false, none⟩

/-- An entry that delivers every telegram to port A, with HOLD and WAKE. -/
def entry : RouteEntry := ⟨.a, 0, 0, 0, ⟨true, true, true⟩, .any, .none, .deliver, true, true, none⟩

/-- The entry live as number 0. -/
def routed (e : RouteEntry) (s : State) : State := { s with routes := s.routes.set 0 (some e) }

/-- The image of the built-in defaults with line on at start; its check is the last argument. -/
def image (check : Word16) : List Byte :=
  [0x4A, 0x5A, 1, 4, 1, 0, 2, 0, 0x03, 0xE8, 1, 0] ++
    (List.replicate 4 ([16, 64, 0, 0, 0xFF, 0xFF] ++ [0, 0, 0, 0, 0, 0, 0x0F] ++ List.replicate 49 0)).flatten ++
    octets2 check

/-- A hub that loads its image. -/
def loading : State := { State.reset with loader := ⟨.loading, false, some 100, Straps.low, imageTransfer 0x50⟩ }

/-- A hub after a reset that ended while port `p`'s chip select was asserted. -/
def stale (p : Port) : State := State.reset.modUnit p (fun u => { u with staleSelect := true })

/-- The slot as number `n` in the hub of `leased`, the quiet latch set. -/
def quieted (n : Nat) (sl : Slot) : State := { leased.setSlot n (some sl) with quiet := ⟨.both, true, true⟩ }

/-- What a step leaves in port `p`'s response holder. -/
def answer (o : Out) (p : Port) : Option Response :=
  match o with
  | .next t => some (t.unit p).holder
  | .fault _ | .refused _ => none

/-- A question about the next state, true where a step answers one of which it holds. -/
def after (o : Out) (q : State → Bool) : Bool :=
  match o with
  | .next t => q t
  | .fault _ | .refused _ => false

def ok : Option Response := some ⟨.ok, []⟩

/-! ## The well-formedness checks refuse ill-formed terms -/

theorem test_wellFormed_noCommand_refused : (Instr.transactionWithoutCommand .a [0x07]).wellFormed = false := by decide
theorem test_wellFormed_unknown_known : (Instr.unknownCommand .a 0x07 [0]).wellFormed = false := by decide
theorem test_wellFormed_unknown_zero : (Instr.unknownCommand .a 0x00 [0]).wellFormed = false := by decide
theorem test_wellFormed_slotExpiry_24 : (Instr.slotExpiry 24).wellFormed = false := by decide
theorem test_wellFormed_image_short : (Instr.imageReadComplete [0x4A, 0x5A]).wellFormed = false := by decide
theorem test_wellFormed_accepted :
    (Instr.transactionWithoutCommand .a [0, 7]).wellFormed = true ∧ (Instr.unknownCommand .a 0x0D []).wellFormed = true ∧
      (Instr.slotExpiry 23).wellFormed = true ∧ (Instr.imageReadComplete (image 0)).wellFormed = true := by decide

/-! ## The line's check sequence -/

/-- The published check value of this generator and preset over the digits 1 to 9. -/
theorem test_checkSequence :
    checkSequence [0x31, 0x32, 0x33, 0x34, 0x35, 0x36, 0x37, 0x38, 0x39] = 0x29B1#16 := by decide

theorem test_judge :
    judge ⟨0, false, telegram.octets⟩ = .clean telegram ∧ judge ⟨0, true, telegram.octets⟩ = .codingError ∧
      judge ⟨0, false, [0, 3, 0, 0, 0]⟩ = .formatError ∧ judge ⟨0, false, [0, 4, 0, 0, 0]⟩ = .checkError := by decide

/-! ## One step of each command -/

/-- The chip select that was under way when the reset ended carries no command; the next one does (11, R176). -/
theorem test_staleSelect :
    after (exec (.attach .b [0]) (stale .b)) (fun t => (t.unit .b).state == .detached && (t.unit .b).holder == Response.empty &&
      answer (exec (.attach .b [0]) t) .b == some ⟨.ok, [1]⟩) = true := by decide
theorem test_staleSelect_other : answer (exec (.attach .a [0]) (stale .b)) .a = some ⟨.ok, [1]⟩ := by decide
theorem test_transactionWithoutCommand :
    after (exec (.transactionWithoutCommand .a [0, 0, 0]) hub) (fun t => (t.unit .a).sdo == [1, 0, 0xFF]) = true := by
  decide
theorem test_unknownCommand : answer (exec (.unknownCommand .a 0x0D [0]) hub) .a = some ⟨.unknown, []⟩ := by decide
theorem test_attach : answer (exec (.attach .b [0]) hub) .b = some ⟨.ok, [1]⟩ := by decide
theorem test_detach :
    after (exec (.detach .a [0]) leased) (fun t => (t.unit .a).state == .detached && t.line.lease == none &&
      (t.unit .b).has .leaseFree) = true := by decide
theorem test_portReset :
    after (exec (.portReset .a [0]) leased) (fun t => (t.unit .a).detachCause == .reset && (t.rx.get .a).reserve == 16) =
      true := by decide
theorem test_setPresence :
    after (exec (.setPresence .a (clockedIn [0, 50] [])) hub) (fun t => (t.unit .a).presenceTimer == some 50) = true := by
  decide
theorem test_doze :
    answer (exec (.doze .a (clockedIn [3, 0, 0] [])) hub) .a = some ⟨.ok, [2, 0]⟩ := by decide
theorem test_doze_pending :
    after (exec (.doze .a (clockedIn [2, 0, 0] [])) (hub.setRx .a ⟨[{ record with wakeMark := true }], 16, 64, .dropNewest⟩))
      (fun t => (t.unit .a).state == .waking && t.waken .a) = true := by decide
theorem test_resume :
    answer (exec (.resume .a [0]) (hub.modUnit .a (fun u => { u with
      state := .waking, wakeRecord := some ⟨.timer, 9⟩ }))) .a = some ⟨.ok, [3, 0, 9, 0xFF]⟩ := by decide
theorem test_readStatus :
    answer (exec (.readStatus .a [0]) leased) .a =
      some ⟨.ok, [1, 0, 0, 0, 0xFF, 0xFF, 0, 0, 0, 0, 0, 0, 0, 0, 0xFF, 0, 0, 0, 0]⟩ := by decide
theorem test_readId : answer (exec (.readId .d [0]) hub) .d = some ⟨.ok, [0x6C, 0x10, 0x18, 1, 0]⟩ := by decide
theorem test_takeEvents :
    answer (exec (.takeEvents .a [0]) (hub.raise .a .leaseFree)) .a = some ⟨.ok, [0x80, 0]⟩ := by decide
theorem test_setEventMask :
    after (exec (.setEventMask .a (clockedIn [0, 1] [])) (hub.raise .a .rxReady)) (fun t => t.attn .a) = true := by decide
theorem test_leaseTake : answer (exec (.leaseTake .b [0]) leased) .b = some ⟨.leaseHeld, [0]⟩ := by decide
theorem test_leaseRelease : answer (exec (.leaseRelease .a [0]) leased) .a = ok := by decide
theorem test_setWindow :
    answer (exec (.setWindow .a (clockedIn [1, 0, 1, 0, 1, 0, 0, 0x0F] [])) hub) .a = ok := by decide
theorem test_setWindow_badPattern :
    answer (exec (.setWindow .a (clockedIn [1, 0, 2, 0, 1, 0, 0, 0x0F] [])) hub) .a = some ⟨.badPattern, []⟩ := by decide
theorem test_readWindow :
    answer (exec (.readWindow .a (clockedIn [0] [])) hub) .a = some ⟨.ok, [0, 0, 0, 0, 0, 0, 0, 0x0F]⟩ := by decide
theorem test_routeAdd :
    answer (exec (.routeAdd .a (clockedIn (entry.octets) [])) (routed entry hub)) .a = some ⟨.ok, [1]⟩ := by decide
theorem test_routeRemove : answer (exec (.routeRemove .b (clockedIn [0] [])) (routed entry two)) .b = some ⟨.notOwner, []⟩ := by
  decide
theorem test_routeRead :
    answer (exec (.routeRead .b (clockedIn [0] [])) (routed entry two)) .b = some ⟨.ok, 0 :: 0 :: entry.octets⟩ := by decide
theorem test_routeList : answer (exec (.routeList .a [0]) (routed entry hub)) .a = some ⟨.ok, [1, 0]⟩ := by decide
theorem test_fetch :
    answer (exec (.fetch .a [0]) (hub.setRx .a ⟨[record], 16, 64, .dropNewest⟩)) .a =
      some ⟨.ok, [0, 0, 0, 0xFF, 0, 0, 5, 0, 5, 0, 0, 1, 3]⟩ := by decide
theorem test_flushRx :
    answer (exec (.flushRx .a [0]) (hub.setRx .a ⟨[record], 16, 64, .dropNewest⟩)) .a = some ⟨.ok, [1]⟩ := by decide
theorem test_setReserve :
    after (exec (.setReserve .a (clockedIn [2, 32, 32, 1] [])) leased) (fun t => t.rx.get .c == ⟨[], 32, 32, .dropOldest⟩) =
      true := by decide
theorem test_readPool :
    answer (exec (.readPool .a [0]) hub) .a =
      some ⟨.ok, [128, 64, 0, 16, 64, 0, 0, 16, 64, 0, 0, 16, 64, 0, 0, 16, 64, 0]⟩ := by decide
theorem test_send :
    answer (exec (.send .a (clockedIn [0, 0, 5, 2, 1, 2] [])) hub) .a = some ⟨.ok, [0, 5, 1]⟩ := by decide
theorem test_send_labelReserved :
    answer (exec (.send .a (clockedIn [0, 0, 0, 0] [])) hub) .a = some ⟨.labelReserved, []⟩ := by decide
theorem test_sendWake : answer (exec (.sendWake .a [0]) hub) .a = some ⟨.ok, [2]⟩ := by decide
theorem test_txFlush : answer (exec (.txFlush .a [0]) (flying (.queueHead .a))) .a = some ⟨.ok, [0]⟩ := by decide
theorem test_txStatus :
    answer (exec (.txStatus .a [0]) (flying (.queueHead .a))) .a = some ⟨.ok, [1, 1, 1, 0, 5, 0, 5, 0, 0, 0]⟩ := by decide
theorem test_slotCreate :
    answer (exec (.slotCreate .a (clockedIn [0, 7, 0, 100, 0, 20, 2, 1, 2] [])) hub) .a = some ⟨.ok, [0, 0, 7]⟩ := by decide
theorem test_slotConfigure :
    answer (exec (.slotConfigure .a (clockedIn [0, 1, 2, 3, 1, 0, 99, 3, 7] [])) (withSlot slot)) .a = ok := by decide
theorem test_slotStart :
    after (exec (.slotStart .a (clockedIn [0] [])) (withSlot slot))
      (fun t => t.slot 0 == some { slot with state := .running, nextExpiry := some 20 }) = true := by decide
/-- A ONE_SHOT slot with offset 0: a quiet edge after SLOT_START halts it with RUNNING held (10, R174). -/
theorem test_slotStart_offset0 :
    let sl : Slot := { slot with mode := .oneShot, offset := 0 }
    after (exec (.slotStart .a (clockedIn [0] [])) { withSlot sl with quiet := ⟨.both, false, false⟩ }) (fun t =>
      t.slot 0 == some { sl with state := .running, nextExpiry := some 0 } &&
      after (exec (.quietEdge .rising) t) (fun u => u.slot 0 == some { sl with state := .halted .running })) = true := by
  decide
theorem test_slotStop :
    after (exec (.slotStop .a (clockedIn [0, 1] [])) (withSlot running))
      (fun t => t.slot 0 == some { running with state := .finishing }) = true := by decide
theorem test_slotRefresh :
    after (exec (.slotRefresh .a (clockedIn [0, 1, 8] [])) (withSlot running))
      (fun t => t.slot 0 == some { running with pendingPayload := some [8] }) = true := by decide
theorem test_slotSetPeriod :
    answer (exec (.slotSetPeriod .a (clockedIn [0, 0, 20] [])) (withSlot slot)) .a = some ⟨.outOfRange, []⟩ := by decide
theorem test_slotRemove :
    after (exec (.slotRemove .a (clockedIn [0] [])) (withSlot { slot with standIn := some standIn }))
      (fun t => t.slot 0 == none && (t.unit .b).has .coverEnded) = true := by decide
theorem test_slotRead :
    answer (exec (.slotRead .b (clockedIn [0] [])) (withSlot { slot with standIn := some standIn })) .b =
      some ⟨.ok, [0, 0, 0, 7, 0, 7, 0, 0xFF, 0, 0, 0, 0, 0, 100, 0, 20, 0x80, 3, 0, 0, 0xFF, 0xFF, 0, 0, 0, 0, 0, 1, 0, 2,
        1, 2, 0, 0, 0, 1, 9]⟩ := by decide
theorem test_standinAttach :
    answer (exec (.standinAttach .b (clockedIn [0, 0, 7, 1, 9] [])) (withSlot slot)) .b = some ⟨.ok, [0, 0, 7]⟩ := by decide
theorem test_standinRefresh :
    answer (exec (.standinRefresh .a (clockedIn [0, 0] [])) (withSlot { slot with standIn := some standIn })) .a =
      some ⟨.notOwner, []⟩ := by decide
theorem test_standinDetach :
    after (exec (.standinDetach .b (clockedIn [0] [])) (withSlot { slot with standIn := some standIn }))
      (fun t => t.slot 0 == some slot && (t.unit .a).has .standinGone) = true := by decide
theorem test_lineSet :
    after (exec (.lineSet .a (clockedIn [1, 3, 0, 50, 1] [])) (flying .none)) (fun t => t.line.pendingMode == some .listenOnly &&
      t.line.silenceTimer == some 50) = true := by decide
/-- An edge selection beyond Table 12-3 is refused (10, R171; 12, R184). -/
theorem test_quietSelectionRange :
    answer (exec (.quietConfig .a [1, 4]) leased) .a = some ⟨.outOfRange, []⟩ := by decide

theorem test_lineOn : after (exec (.lineOn .a [0]) leased) (fun t => t.line.state == .search) = true := by decide
theorem test_lineOff :
    after (exec (.lineOff .a [0]) (flying (.queueHead .a))) (fun t => t.line.state == .off && t.line.inFlight == none) =
      true := by decide
theorem test_lineResync :
    answer (exec (.lineResync .a [0]) leased) .a = some ⟨.wrongState, []⟩ := by decide
theorem test_readLine :
    answer (exec (.readLine .b [0]) onLine) .b = some ⟨.ok, [2, 1, 2, 2, 0, 0xFF, 0x03, 0xE8, 0, 0, 0, 0]⟩ := by decide
theorem test_quietConfig :
    after (exec (.quietConfig .a (clockedIn [2] [])) leased) (fun t => t.quiet.selection == .falling) = true := by decide
theorem test_quietClear : answer (exec (.quietClear .a [0]) leased) .a = some ⟨.wrongState, []⟩ := by decide

/-- QUIET_CLEAR with offset 0: the slot returns to FINISHING with its expiry due, a SLOT_STOP after the clear ends it STOPPED
with no due entry, and the expiry taken first publishes and stops it. -/
theorem test_quietClear_offset0 :
    let sl : Slot := { slot with state := .halted .finishing, offset := 0 }
    after (exec (.quietClear .b [0]) (quieted 0 sl)) (fun t =>
      t.slot 0 == some { sl with state := .finishing, nextExpiry := some 0 } &&
      after (exec (.slotStop .a (clockedIn [0, 0] [])) t) (fun u => u.slot 0 == some { sl with state := .stopped }) &&
      after (exec (.slotExpiry 0) t) (fun u => (u.slot 0).any (fun x => x.state == .stopped && x.due.isSome))) = true := by
  decide

theorem test_receptionEnd :
    after (exec (.receptionEnd ⟨1, false, telegram.octets⟩) (routed entry onLine))
      (fun t => (t.rx.get .a).queue.length == 1 && (t.unit .a).has .rxReady) = true := by decide
theorem test_receptionEnd_search :
    after (exec (.receptionEnd ⟨1, false, telegram.octets⟩) (searching.modLine (fun u => { u with cleanCount := 1 })))
      (fun t => t.line.state == .synced) = true := by decide
/-- Activity that began before a dwell expiry, a LINE_RESYNC, a LINE_OFF with its LINE_ON, or an echo error has no reception end
(01, R4, R7, R22, R23). -/
theorem test_receptionAbandoned :
    let same (t : State) := after (exec (.receptionEnd ⟨1, false, telegram.octets⟩) t) (fun u => u == t)
    after (exec .dwellExpiry (searching.modLine (fun u => { u with dwellTimer := some 0 }))) same = true ∧
      after (exec (.lineResync .a [0]) onLine) same = true ∧
      after (exec (.lineOff .a [0]) onLine) (fun t => after (exec (.lineOn .a [0]) t) same) = true ∧
      after (exec .echoError (flying (.queueHead .a))) same = true := by decide
theorem test_generalWakeWindowEnd :
    after (exec .generalWakeWindowEnd { hub with detector := some ⟨0, none, 0⟩ }) (fun t => t.detector == none) = true := by
  decide
theorem test_dwellExpiry :
    after (exec .dwellExpiry (searching.modLine (fun u => { u with dwellTimer := some 0 }))) (fun t =>
      t.line.trialRate == .k800) = true := by decide
theorem test_silenceExpiry :
    after (exec .silenceExpiry (onLine.modLine (fun u => { u with silenceTimer := some 0 }))) (fun t =>
      t.line.silentFlag && (t.unit .a).has .lineSilent) = true := by decide
theorem test_transmissionStart :
    after (exec .transmissionStart waiting) (fun t => t.line.inFlight == some ⟨telegram, .queueHead .a, .a⟩ && t.len) =
      true := by decide
theorem test_transmissionStart_loopback :
    after (exec .transmissionStart (routed { entry with owner := .b } (waiting.modLine (fun u => { u with mode := .loopback }))))
      (fun t => (t.tx.get .a).entries.isEmpty && (t.unit .a).has .txDone && (t.rx.get .b).queue.length == 1 && !t.len) =
      true := by decide
theorem test_contentionLoss :
    after (exec (.contentionLoss 4) (flying (.queueHead .a))) (fun t => t.line.inFlight == none &&
      t.line.errorCount == 0) = true := by decide
theorem test_echoError :
    after (exec .echoError ((flying (.queueHead .a)).modLine (fun u => { u with errorCount := 31 }))) (fun t =>
      t.line.state == .degraded && t.line.errorCount == 32) = true := by decide
theorem test_attemptSent :
    after (exec .attemptSent (flying (.queueHead .a))) (fun t => (t.tx.get .a).entries.isEmpty &&
      (t.unit .a).has .txDone) = true := by decide
theorem test_slotExpiry :
    after (exec (.slotExpiry 0) (withSlot running)) (fun t =>
      t.slot 0 == some { running with nextExpiry := some 100, due := some ⟨[1, 2], 0, 0, 0⟩ }) = true := by decide
theorem test_slotExpiry_takeover :
    after (exec (.slotExpiry 0) (withSlot { running with
        freshRequired := true, standIn := some { standIn with coveredRun := 2 } })) (fun t =>
      (t.slot 0).map Slot.owner == some .b && (t.unit .a).has .slotLost && (t.unit .b).has .slotGained) = true := by decide
theorem test_triggerEdge :
    after (exec (.triggerEdge .trig1 .falling) (withSlot { slot with
        state := .armed, source := .trigger .trig1, edge := some .both })) (fun t =>
      (t.slot 0).map Slot.nextExpiry == some (some 20)) = true := by decide
theorem test_quietEdge :
    after (exec (.quietEdge .rising) { flying (.dueEntry 0) with
        slots := (withSlot { running with due := some ⟨[1], 0, 0, 0⟩ }).slots, quiet := ⟨.rising, false, false⟩ }) (fun t =>
      t.slot 0 == some { running with state := .halted .running, nextExpiry := none } && t.quiet.latch &&
        t.line.inFlight == none) = true := by decide
theorem test_timebaseTick :
    after (exec .timebaseTick (withSlot { running with nextExpiry := some 3 })) (fun t =>
      t.stamp == 1 && (t.slot 0).map Slot.nextExpiry == some (some 2)) = true := by decide
theorem test_presenceExpiry :
    after (exec (.presenceExpiry .a) (hub.modUnit .a (fun u => { u with presenceTimer := some 0 }))) (fun t =>
      (t.unit .a).detachCause == .presence) = true := by decide
theorem test_wakeTimerExpiry :
    after (exec (.wakeTimerExpiry .a) (hub.modUnit .a (fun u => { u with
        state := .dozing, wakeTimer := some 0, wakeSet := ⟨false, false, true⟩ }))) (fun t =>
      t.waken .a && (t.unit .a).ackTimer == some 250) = true := by decide
theorem test_wakeAcknowledgeExpiry :
    after (exec (.wakeAcknowledgeExpiry .a) (hub.modUnit .a (fun u => { u with state := .waking, ackTimer := some 0 })))
      (fun t => (t.unit .a).detachCause == .wakeUnanswered) = true := by decide
theorem test_deviceResetStart :
    after (exec (.deviceResetStart .pin) (flying .none)) (fun t => t.resetting == some .pin && !t.len) = true := by decide
theorem test_deviceResetStart_loading :
    loading.imageBus.isEmpty = false ∧
      after (exec (.deviceResetStart .pin) loading) (fun t => t.imageBus.isEmpty && t.loader.transfer.isEmpty) = true := by
  decide
theorem test_deviceResetEnd :
    after (exec (.deviceResetEnd ⟨⟨true, false, true⟩, [.d]⟩) { onLine with resetting := some .pin }) (fun t =>
      t.loader == ⟨.loading, false, some 100, ⟨true, false, true⟩, imageTransfer 0x51⟩ && t.loader.busAddress == 0x51 &&
        t.imageBus.take 5 == [.address 0x51 false, .send 0, .send 0, .address 0x51 true, .read true] &&
        t.imageBus.length == 266 && t.imageBus.getLast? == some (.read false) && (t.unit .c).detachCause == .pin && (t.unit .d).staleSelect && !(t.unit .c).staleSelect) = true := by decide
theorem test_imageReadComplete :
    after (exec (.imageReadComplete (image 0xF4F4)) loading) (fun t => t.loader.state == .ready && !t.loader.loadFault &&
      t.line.state == .search && t.quiet.selection == .rising) = true := by decide
theorem test_imageReadComplete_badCheck :
    after (exec (.imageReadComplete (image 0)) loading) (fun t => t.loader.state == .ready && t.loader.loadFault &&
      t.line.state == .off) = true := by decide
theorem test_missingAcknowledge :
    after (exec .missingAcknowledge loading) (fun t => t.loader.state == .ready && t.loader.loadFault) = true := by decide
theorem test_loadTimeLimit :
    after (exec .loadTimeLimit { loading with loader := { loading.loader with timer := some 0 } }) (fun t =>
      t.loader.state == .ready && t.loader.loadFault && t.imageBus.isEmpty) = true := by decide

/-! ## Each statement's hypotheses are met -/

/-- Line activity of a telegram with label 0, of a kind's code, a length octet and as many octets of 0, without a check that
holds. -/
def activity (kind n : Nat) : LineActivity := ⟨0, false, [0, oct kind, oct n] ++ List.replicate (n + 2) 0⟩

/-- ReceptionJudged: broken coding, too few octets, a length that does not fit; the unknown kind, 17 octets, a general wake
telegram with an octet; a wrong check; the shortest and the longest clean telegram. -/
theorem witness_ReceptionJudged :
    (⟨0, true, telegram.octets⟩ : LineActivity).broken = true ∧ [0, 0].length < 3 ∧ (activity 0 16).octets.length + 1 ≠ 5 + 16 ∧
    (activity 3 0).octets.length = 5 + 0 ∧ (wordAt (activity 3 0).octets 0).toNat % 4 = 3 ∧
    (activity 0 17).octets.length = 5 + 17 ∧ 16 < (octetAt (activity 0 17).octets 2).toNat ∧
    (activity 2 1).octets.length = 5 + 1 ∧ (wordAt (activity 2 1).octets 0).toNat % 4 = 2 ∧
    wordAt (activity 0 16).octets (3 + 16) ≠ checkSequence ((activity 0 16).octets.take (3 + 16)) ∧
    (∀ t ∈ [(⟨.wake, 0, []⟩ : Telegram), ⟨.data, 16383, List.replicate 16 0xFF⟩],
      wordAt t.octets (3 + t.payload.length) = checkSequence (t.octets.take (3 + t.payload.length))) := by decide

/-- TelegramRoundTrip: well-formed telegrams of each kind, with no octet and with sixteen. -/
theorem witness_TelegramRoundTrip :
    ∀ t ∈ [(⟨.wake, 0, []⟩ : Telegram), ⟨.wake, 1, List.replicate 16 1⟩, ⟨.data, 0, []⟩, ⟨.query, 16383, List.replicate 16 0xFF⟩],
      t.wellFormed = true := by decide

/-- EnvelopeJudged: no parameter and 255 of them; fewer octets than the length octet states. -/
theorem witness_EnvelopeJudged :
    (List.replicate 0 (0 : Byte)).length ≤ 255 ∧ (List.replicate 255 (0 : Byte)).length ≤ 255 ∧
      ([] : List Byte).length < (1 : Byte).toNat ∧ (List.replicate 254 (0 : Byte)).length < (255 : Byte).toNat := by decide

/-- RefusedChangesNothing: a refused transaction, with and without data in its response. -/
theorem witness_RefusedChangesNothing :
    two.Listens .a ∧ leased.Listens .b ∧ ((transaction .a [0x02] two).unit .a).holder.code ≠ .ok ∧
      ((transaction .b [0x0B, 0] leased).unit .b).holder.code = .leaseHeld := by decide

/-- ChecksBeforeTheBlock: the codes at the ends of a gap, a loading hub, malformed parameters, a refusal of every state. -/
theorem witness_ChecksBeforeTheBlock :
    loading.Listens .a ∧ loading.loader.state = .loading ∧ hub.Listens .a ∧ hub.loader.state = .ready ∧
      isUnknownCode 0x0D = true ∧ isUnknownCode 0x0F = true ∧ isUnknownCode 0xFF = true ∧
      parameters Command.attach.frame [] = none ∧ parameters Command.attach.frame [1, 0] = none ∧
      parameters Command.attach.frame [0] = some [] ∧ stateCheck .attach (hub.unit .a).state = some .wrongState ∧
      stateCheck .doze (hub.unit .b).state = some .notAttached := by decide

/-- HolderShiftedOut: no octet, and an octet 0 of 00h; a port whose chip select was under way when the reset ended. -/
theorem witness_HolderShiftedOut :
    hub.Listens .a ∧ (stale .b).resetting = none ∧ ((stale .b).unit .b).staleSelect = true ∧ carriesNoCommand [] = true ∧ carriesNoCommand [0, 7] = true := by decide

/-- PortsAreSeparate: a command that takes effect, beside another port. -/
theorem witness_PortsAreSeparate :
    Port.b ≠ Port.a ∧ ∃ t, exec (Command.detach.row .a [0]) leased = .next t := ⟨by decide, _, rfl⟩

/-- InertDuringReset: a hub in a device reset, and a row that is none of the three. -/
theorem witness_InertDuringReset :
    ({ hub with resetting := some .pin } : State).resetting ≠ none ∧ (∀ k, Instr.timebaseTick ≠ .deviceResetStart k) ∧
      (∀ x, Instr.timebaseTick ≠ .deviceResetEnd x) ∧ ∀ e, Instr.timebaseTick ≠ .quietEdge e :=
  ⟨by decide, fun _ => by simp, fun _ => by simp, fun _ => by simp⟩

/-- Port A with its presence timer, its wake timer or its acknowledge timer at 0, in its state. -/
def timedOut (st : PortState) : State := hub.modUnit .a (fun u => { u with
  state := st, presenceTimer := if st = .active then some 0 else none, wakeTimer := if st = .dozing then some 0 else none
  ackTimer := if st = .waking then some 0 else none, wakeSet := if st = .dozing then ⟨true, true, true⟩ else WakeSet.empty })

/-- AttachedAndDetached: a DETACHED port, an ACTIVE one, and the two timers ended and not ended. -/
theorem witness_AttachedAndDetached :
    hub.Ready .b ∧ (hub.unit .b).state = .detached ∧ hub.Active .a ∧
      ((timedOut .active).unit .a).presenceTimer = some 0 ∧ ((timedOut .waking).unit .a).ackTimer = some 0 ∧
      (timedOut .waking).resetting = none ∧ (hub.unit .a).presenceTimer ≠ some 0 ∧ (hub.unit .a).state ≠ .waking := by decide

/-- Slots of A without and with a stand-in, of B with A's stand-in, and of B alone; routes of A and of B; A holds the lease and
a telegram of source `src` is in flight. -/
def owned (src : Source) : State := { flying src with
  slots := [some slot, some { slot with lineLabel := 8, standIn := some standIn },
    some { slot with lineLabel := 9, owner := .b, standIn := some { standIn with port := .a } },
    some { slot with lineLabel := 10, owner := .b }] ++ List.replicate 20 none
  routes := [some entry, some { entry with owner := .b }] ++ List.replicate 62 none }

theorem owned_slot {src : Source} {n : Nat} {sl : Slot} (h : (owned src).slot n = some sl) :
    (n = 0 ∧ sl = slot) ∨ (n = 1 ∧ sl = { slot with lineLabel := 8, standIn := some standIn }) ∨
      (n = 2 ∧ sl = { slot with lineLabel := 9, owner := .b, standIn := some { standIn with port := .a } }) ∨
      (n = 3 ∧ sl = { slot with lineLabel := 10, owner := .b }) := by
  rw [State.slot_eq_some] at h
  match n with
  | 0 => simp [owned] at h; simp [h]
  | 1 => simp [owned] at h; simp [h]
  | 2 => simp [owned] at h; simp [h]
  | 3 => simp [owned] at h; simp [h]
  | k + 4 =>
    change (List.replicate 20 (none : Option Slot))[k]? = some (some sl) at h
    rw [List.getElem?_replicate] at h
    split at h <;> cases h

theorem owned_route {src : Source} {e : RouteEntry} (h : some e ∈ (owned src).routes) : e.owner = .a ∨ e.owner = .b := by
  change some e ∈ [some entry, some { entry with owner := .b }] ++ List.replicate 62 (none : Option RouteEntry) at h
  rw [List.mem_append, List.mem_cons, List.mem_singleton] at h
  rcases h with (h | h) | h
  · cases h; exact .inl rfl
  · cases h; exact .inr rfl
  · cases (List.mem_replicate.1 h).2

/-- TeardownReleases: a hub of which every clause takes something away, sound in its slots and owners. -/
theorem witness_TeardownReleases (src : Source) :
    SlotsSafe (owned src) ∧ OwnershipSafe (owned src) ∧ ((owned src).unit .a).state ≠ .detached ∧
      (owned src).line.lease = some .a ∧ (owned src).line.lease ≠ some .b ∧ ((owned src).unit .b).state = .active ∧
      (owned src).route 0 = some entry ∧ (owned src).line.inFlight = some ⟨telegram, src, .a⟩ := by
  have mem : ∀ sl, some sl ∈ (owned src).slots → ∃ n, (owned src).slot n = some sl := by
    intro sl h
    obtain ⟨n, hn⟩ := List.mem_iff_getElem?.1 h
    exact ⟨n, State.slot_eq_some.2 hn⟩
  refine ⟨⟨rfl, ?_, ?_⟩, ⟨rfl, ?_, ?_⟩, by show PortState.active ≠ .detached; decide, rfl,
    by show some Port.a ≠ some Port.b; decide, rfl, rfl, rfl⟩
  · intro sl h
    obtain ⟨n, hn⟩ := mem sl h
    rcases owned_slot hn with ⟨-, rfl⟩ | ⟨-, rfl⟩ | ⟨-, rfl⟩ | ⟨-, rfl⟩ <;>
      simp [Slot.Sound, slot, Slot.created, standIn, SlotState.runs, Config.maxPeriod, Config.runLimit]
  · intro m n x y hx hy hl
    rcases owned_slot hx with ⟨rfl, rfl⟩ | ⟨rfl, rfl⟩ | ⟨rfl, rfl⟩ | ⟨rfl, rfl⟩ <;>
      rcases owned_slot hy with ⟨rfl, rfl⟩ | ⟨rfl, rfl⟩ | ⟨rfl, rfl⟩ | ⟨rfl, rfl⟩ <;>
      simp [slot, Slot.created] at hl ⊢
  · intro p hp
    cases p with
    | a => exact absurd hp (by show PortState.active ≠ .detached; decide)
    | b => exact absurd hp (by show PortState.active ≠ .detached; decide)
    | c =>
      refine ⟨by show some Port.a ≠ some Port.c; decide, rfl, rfl, rfl, fun e he => ?_, ?_⟩
      · rcases owned_route he with h | h <;> rw [h] <;> decide
      · intro sl h
        obtain ⟨n, hn⟩ := mem sl h
        rcases owned_slot hn with ⟨-, rfl⟩ | ⟨-, rfl⟩ | ⟨-, rfl⟩ | ⟨-, rfl⟩ <;> simp [slot, Slot.created, standIn]
    | d =>
      refine ⟨by show some Port.a ≠ some Port.d; decide, rfl, rfl, rfl, fun e he => ?_, ?_⟩
      · rcases owned_route he with h | h <;> rw [h] <;> decide
      · intro sl h
        obtain ⟨n, hn⟩ := mem sl h
        rcases owned_slot hn with ⟨-, rfl⟩ | ⟨-, rfl⟩ | ⟨-, rfl⟩ | ⟨-, rfl⟩ <;> simp [slot, Slot.created, standIn]
  · intro sl h si hsi
    obtain ⟨n, hn⟩ := mem sl h
    rcases owned_slot hn with ⟨-, rfl⟩ | ⟨-, rfl⟩ | ⟨-, rfl⟩ | ⟨-, rfl⟩ <;>
      simp [slot, Slot.created, standIn] at hsi <;> subst hsi <;> simp [slot, Slot.created]

/-- TeardownReleases, the slots and sources of its clauses: the head of A's queue and a slot that is removed; a slot that passes
on, and one of B. -/
theorem witness_TeardownReleases_slots (src : Source) :
    ((owned src).slot 0 = some slot ∧ slot.owner = .a ∧ slot.standIn = none) ∧
      (∃ sl, (owned src).slot 1 = some sl ∧ sl.owner = .a ∧ sl.standIn = some standIn) ∧
      (∃ sl, (owned src).slot 2 = some sl ∧ sl.owner ≠ .a ∧ sl.standIn = some { standIn with port := .a }) ∧
      (∃ sl, (owned src).slot 3 = some sl ∧ sl.owner ≠ .a ∧ sl.standIn = none) ∧
      (owned (.queueHead .a)).source = .queueHead .a ∧ (owned (.dueEntry 0)).source = .dueEntry 0 ∧
      (owned (.dueEntry 1)).source = .dueEntry 1 :=
  ⟨⟨rfl, rfl, rfl⟩, ⟨_, rfl, rfl, rfl⟩, ⟨_, rfl, by decide, rfl⟩, ⟨_, rfl, by decide, rfl⟩, rfl, rfl, rfl⟩

/-- PortResetTaken: an ACTIVE and a DETACHED port, a reserve that fits and one that does not. -/
theorem witness_PortResetTaken :
    hub.Ready .a ∧ hub.Ready .b ∧ (hub.unit .a).state ≠ .detached ∧ (hub.unit .b).state = .detached ∧
      sumPorts (fun q => if q = Port.a then 0 else max (hub.rx.get q).reserve (hub.rx.get q).queue.length) + 16 ≤ 128 ∧
      ¬(sumPorts (fun q => if q = Port.a then 0 else
        max ((hub.setRx .b ⟨List.replicate 90 record, 0, 90, .dropNewest⟩).rx.get q).reserve
          ((hub.setRx .b ⟨List.replicate 90 record, 0, 90, .dropNewest⟩).rx.get q).queue.length) + 16 ≤ 128) := by decide

/-- PresenceAndEvents: the interval's range at its ends, inside and outside. -/
theorem witness_PresenceAndEvents :
    hub.Active .a ∧
      (∀ n ∈ [0#16, 10#16, 2550#16], n.toNat = 0 ∨ (10 ≤ n.toNat ∧ n.toNat ≤ 2550 ∧ n.toNat % 10 = 0)) ∧
      (∀ n ∈ [1#16, 9#16, 11#16, 2551#16, 2560#16, 65535#16],
        ¬(n.toNat = 0 ∨ (10 ≤ n.toNat ∧ n.toNat ≤ 2550 ∧ n.toNat % 10 = 0))) :=
  ⟨by decide, by simp, by simp⟩

/-- FlagsAndOutputs: a port that records and one that does not, two flags, a transmission in flight and none. -/
theorem witness_FlagsAndOutputs :
    hub.resetting = none ∧ (flying .none).line.inFlight = some ⟨telegram, .none, .a⟩ ∧ hub.line.inFlight = none ∧ (hub.unit .a).state ≠ .detached ∧ (hub.unit .b).state = .detached ∧ EventFlag.rxReady ≠ EventFlag.leaseFree := by decide

/-- StatusReads: a hub that takes commands. -/
theorem witness_StatusReads : hub.Ready .a := by decide

/-- LeaseTakenAndReleased: the lease free, held by the port, held by another. -/
theorem witness_LeaseTakenAndReleased :
    two.Active .a ∧ two.line.lease = none ∧ leased.Active .a ∧ leased.line.lease = some .a ∧ leased.Active .b ∧
      Port.a ≠ Port.b ∧ leased.line.lease ≠ some .b := by decide

/-- WindowCommands: windows 0 and 7, the number 8, a window inside its mask and one outside, both port states. -/
theorem witness_WindowCommands :
    hub.Ready .a ∧ hub.Ready .b ∧ (hub.unit .a).state = .active ∧ (hub.unit .b).state = .detached ∧ (0 : Byte).toNat ≤ 7 ∧
      (7 : Byte).toNat ≤ 7 ∧ 7 < (8 : Byte).toNat ∧ Window.identity.inMask = true ∧
      ({ Window.identity with base := 1 }).inMask = false ∧ 16383 < (16384#16).toNat ∧ 15 < (16 : Byte).toNat ∧ (hub.windows.get .a)[0]? = some Window.identity := by decide

/-- TranslationDecides: no window that hits; the identity window behind one that does not, permitted and not, to label 0 and
to another. -/
theorem witness_TranslationDecides :
    (∀ w ∈ [Window.blank], ¬(w.enabled = true ∧ (5 : Label) &&& w.mask = w.base)) ∧
      [Window.blank, Window.identity] = [Window.blank] ++ Window.identity :: [] ∧ Window.identity.enabled = true ∧
      (5 : Label) &&& Window.identity.mask = Window.identity.base ∧ Window.identity.inMask = true ∧
      (∀ l ∈ [(0 : Label), 5], ∀ k, k < 14 → l.getLsbD k =
        if Window.identity.mask.getLsbD k = true then Window.identity.map.getLsbD k else l.getLsbD k) ∧
      Window.identity.allows .data = true ∧ ({ Window.identity with allowData := false }).allows .data = false :=
  ⟨by decide, rfl, by decide, by decide, by decide, fun l _ k _ => by simp [Window.identity], by decide, by decide⟩

/-- RouteAdded: 28 octets with the first value out of each range; rank 15, length 16, a data test and a local base; a base outside
the mask and an empty kind set; 31 and 32 entries of the port, a full table, the first and the last free entry. -/
theorem witness_RouteAdded :
    hub.Active .a ∧ (16 :: List.replicate 27 (0 : Byte)).length = 28 ∧ 15 < (16 : Byte).toNat ∧ 16383 < (16384#16).toNat ∧
      7 < (8 : Byte).toNat ∧ (16 < (17 : Byte).toNat ∧ (254 : Byte).toNat ≠ 255) ∧ 2 < (3 : Byte).toNat ∧ 1 < (2 : Byte).toNat ∧
      (4 : Byte).getLsbD 2 = true ∧ 15 ≤ 15 ∧ (∃ k, k ≤ 16 ∧ LengthTest.exact 16 = .exact k) ∧
      (List.replicate 8 (0xF0 : Byte)).length = 8 ∧
      DataTest.equal (List.replicate 8 0xF0) (List.replicate 8 0x10) =
        .equal (List.replicate 8 0xF0) (List.zipWith (· &&& ·) (List.replicate 8 0x1F) (List.replicate 8 0xF0)) ∧
      (∃ b : Label, some (3 : Label) = some b ∧ 3#16 = b.setWidth 16) ∧ (3 : Label) &&& ~~~0x3FFF = 0 ∧
      (3 : Label) &&& ~~~2 ≠ 0 ∧ ¬(false = true) ∧ hub.routeCount .a < 32 ∧
      32 ≤ ({ hub with routes := List.replicate 32 (some entry) ++ List.replicate 32 none } : State).routeCount .a ∧
      (∀ x ∈ ({ hub with routes := List.replicate 64 (some { entry with owner := .b }) } : State).routes, x ≠ none) ∧
      hub.routes[0]? = some none ∧
      ({ hub with routes := List.replicate 63 (some { entry with owner := .b }) ++ [none] } : State).routes[63]? = some none ∧
      (∀ m, m < 63 → (({ hub with routes := List.replicate 63 (some { entry with owner := .b }) ++ [none] } : State).route
        m).isSome = true) :=
  ⟨by decide, by decide, by decide, by decide, by decide, by decide, by decide, by decide, by decide, by decide,
    ⟨16, by decide, rfl⟩, rfl, by decide, ⟨3, rfl, by decide⟩, by decide, by decide, by decide, by decide, by decide, by decide,
    by decide, by decide, by decide⟩

/-- RouteEntriesNamed: the numbers 63 and 64, a free entry, one of the port, one of another. -/
theorem witness_RouteEntriesNamed :
    two.Active .a ∧ 63 < (64 : Byte).toNat ∧ (63 : Byte).toNat ≤ 63 ∧ two.route 63 = none ∧
      (routed entry two).route 0 = some entry ∧ entry.owner = .a ∧ entry.owner ≠ .b ∧ (routed entry two).Active .b ∧
      (routed entry two).routes.length = 64 := by decide

/-- EntriesMatchAndDecide: masks and values of eight octets. -/
theorem witness_EntriesMatchAndDecide : (List.replicate 8 (0xF0 : Byte)).length = 8 := by decide

/-- A local offer of port B. -/
def localOffer : Offer := ⟨telegram, 3, some .b⟩

/-- DeliveryTable: the excluded port, no entry, each action, mark and port state. -/
theorem witness_DeliveryTable :
    localOffer.excluded = some .b ∧ localOffer.excluded ≠ some .a ∧ decidingEntry hub.routes .a telegram = none ∧
      (∀ e ∈ [entry, { entry with action := .discard }, { entry with wake := false },
          { entry with hold := false, wake := false }],
        decidingEntry (routed e hub).routes .a telegram = some (0, e)) ∧
      (hub.unit .a).state = .active ∧ (hub.unit .b).state = .detached ∧ ((timedOut .dozing).unit .a).state = .dozing ∧
      ((timedOut .waking).unit .a).state = .waking := by decide

/-- FetchAndFlush: an empty queue and one of two records. -/
theorem witness_FetchAndFlush :
    hub.Active .a ∧ (hub.rx.get .a).queue = [] ∧
      ((hub.setRx .a ⟨[record, record], 16, 64, .dropNewest⟩).rx.get .a).queue = record :: [record] := by decide

/-- PoolSettings: no lease; each end of the ranges, inside and outside; a reserve that fits and one that does not. -/
theorem witness_PoolSettings :
    leased.Active .a ∧ leased.Active .b ∧ leased.line.lease = some .a ∧ leased.line.lease ≠ some .b ∧
      sumPorts leased.occupancy ≤ 128 ∧ 3 < (4 : Byte).toNat ∧ 1 < (2 : Byte).toNat ∧
      (∀ x ∈ [((0 : Byte), (1 : Byte)), (32, 32), (32, 128)],
        x.1.toNat ≤ 32 ∧ 1 ≤ x.2.toNat ∧ x.2.toNat ≤ 128 ∧ x.1.toNat ≤ x.2.toNat) ∧
      (∀ x ∈ [((33 : Byte), (64 : Byte)), (0, 0), (16, 129), (16, 15)],
        ¬(x.1.toNat ≤ 32 ∧ 1 ≤ x.2.toNat ∧ x.2.toNat ≤ 128 ∧ x.1.toNat ≤ x.2.toNat)) ∧
      sumPorts (fun r => max (if r = Port.a then 32 else (leased.rx.get r).reserve) (leased.rx.get r).queue.length) ≤ 128 ∧
      128 < sumPorts (fun r => max (if r = Port.a then 17 else
        ((leased.setRx .b ⟨List.replicate 80 record, 16, 80, .dropNewest⟩).rx.get r).reserve)
          ((leased.setRx .b ⟨List.replicate 80 record, 16, 80, .dropNewest⟩).rx.get r).queue.length) :=
  ⟨by decide, by decide, by decide, by decide, by decide, by decide, by decide, by simp, by simp, by decide, by decide⟩

/-- Port A's queue of `n` WAKE-marked records and then one without the mark, at a limit. -/
def held (n limit : Nat) (policy : Policy) : State :=
  hub.setRx .a ⟨List.replicate n { record with wakeMark := true } ++ [record], 0, limit, policy⟩

/-- AdmissionDecides: room in an empty and a filled queue; at the limit, above it, with the policy, with none to evict. -/
theorem witness_AdmissionDecides :
    (hub.occupancy .a < (hub.rx.get .a).limit ∧ (hub.occupancy .a < (hub.rx.get .a).reserve ∨ 1 ≤ hub.headroom)) ∧
      hub.occupancy .a = 0 ∧ ((held 1 3 .dropOldest).occupancy .a < 3 ∧ 1 ≤ (held 1 3 .dropOldest).headroom) ∧
      ¬((held 1 2 .dropOldest).occupancy .a < 2) ∧ (held 1 2 .dropOldest).occupancy .a ≤ 2 ∧
      ((held 1 2 .dropOldest).rx.get .a).queue = [{ record with wakeMark := true }] ++ record :: [] ∧
      (∀ y ∈ [{ record with wakeMark := true }], y.wakeMark = true) ∧ record.wakeMark = false ∧
      ((held 1 2 .dropNewest).rx.get .a).policy = .dropNewest ∧ 1 < (held 1 1 .dropOldest).occupancy .a ∧
      (∀ y ∈ ((hub.setRx .a ⟨[{ record with wakeMark := true }], 0, 1, .dropOldest⟩).rx.get .a).queue,
        y.wakeMark = true) := by decide

/-- SendTaken: a translation that fails and one that does not; an empty queue, one of seven entries, one of eight; the first
values out of each range. -/
theorem witness_SendTaken :
    hub.Active .a ∧ (List.replicate 16 (0 : Byte)).length ≤ 16 ∧
      translate (hub.windows.get .a) .data 0 = .fails .labelReserved ∧
      translate (hub.windows.get .a) .query 16383 = .label 16383 ∧ (hub.tx.get .a).entries = [] ∧
      (List.replicate 7 query ≠ [] ∧ (List.replicate 7 query).length < 8) ∧ 8 ≤ (List.replicate 8 query).length ∧
      1 < (2 : Byte).toNat ∧ 16383 < (16384#16).toNat ∧ 16 < (List.replicate 17 (0 : Byte)).length ∧
      (List.replicate 251 (0 : Byte)).length ≤ 251 := by decide

/-- TransmitQueueCommands: queues of 0, 6, 7 entries; a head that is in flight and one that waits. -/
theorem witness_TransmitQueueCommands :
    hub.Active .a ∧ (hub.tx.get .a).entries = [] ∧ (List.replicate 6 query ≠ [] ∧ (List.replicate 6 query).length ≤ 6) ∧
      7 ≤ (List.replicate 7 query).length ∧ (waiting.tx.get .a).entries = query :: [] ∧ waiting.line.inFlight = none ∧
      (flying (.queueHead .a)).line.inFlight = some ⟨telegram, .queueHead .a, .a⟩ := by decide

/-- ArbiterChooses: a hub of 24 slots, candidates of each kind. -/
theorem witness_ArbiterChooses :
    waiting.slots.length = 24 ∧ choose waiting.candidates = some ⟨telegram, .queueHead .a, .a, 0⟩ ∧
      choose (withSlot { slot with due := some ⟨[1], 0, 0, 4⟩ }).candidates = some ⟨⟨.data, 7, [1]⟩, .dueEntry 0, .a, 4⟩ := by
  decide

/-- TransmissionBegins: the line not ready to send, no candidate, and a candidate in NORMAL and in LOOPBACK. -/
theorem witness_TransmissionBegins :
    leased.resetting = none ∧ leased.line.state ≠ .synced ∧
      (onLine.line.state = .synced ∧ onLine.line.mode ≠ .listenOnly ∧ onLine.quiet.latch = false ∧
        onLine.line.inFlight = none) ∧ choose onLine.candidates = none ∧ choose waiting.candidates ≠ none ∧
      waiting.line.mode = .normal ∧
      (waiting.modLine (fun u => { u with mode := .loopback })).line.mode = .loopback := by decide

/-- AttemptEnds: an attempt in SYNCED, the labels around its own, the counts around the limit; and none in flight. -/
theorem witness_AttemptEnds :
    (flying .none).resetting = none ∧ (flying .none).line.inFlight = some ⟨telegram, .none, .a⟩ ∧
      (flying .none).line.state = .synced ∧ (4 : Label).toNat < telegram.label.toNat ∧
      telegram.label.toNat ≤ (5 : Label).toNat ∧ 29 + 2 < 32 ∧ 32 ≤ 30 + 2 ∧ waiting.line.inFlight = none := by decide

/-- OutcomeReported: attempts below and at the limit, with and without an entry behind the head. -/
theorem witness_OutcomeReported :
    (waiting.tx.get .a).entries = query :: [] ∧ query.attempts + 1 < 16 ∧ 16 ≤ ({ query with attempts := 15 }).attempts + 1 ∧
      (withSlot { slot with due := some ⟨[1], 0, 14, 0⟩ }).slot 0 = some { slot with due := some ⟨[1], 0, 14, 0⟩ } := by decide

/-- No slot is live in the small hubs. -/
theorem noSlot (n : Nat) : hub.slot n = none := by
  simp only [hub, State.slot, State.modUnit_slots, State.reset, List.getD_eq_getElem?_getD, List.getElem?_replicate]
  split <;> rfl

/-- SlotCreatedAndRemoved: each range at its ends, a label in use, a full table, the first and the last free slot; a slot with and
without a stand-in. -/
theorem witness_SlotCreatedAndRemoved :
    hub.Active .a ∧ (∀ x ∈ [(1#16, 0#16), (60000#16, 59999#16)], 1 ≤ x.1.toNat ∧ x.1.toNat ≤ 60000 ∧ x.2.toNat < x.1.toNat) ∧
      (∀ x ∈ [(0#16, 0#16), (60001#16, 0#16), (100#16, 100#16)],
        ¬(1 ≤ x.1.toNat ∧ x.1.toNat ≤ 60000 ∧ x.2.toNat < x.1.toNat)) ∧
      translate (hub.windows.get .a) .slot 7 = .label 7 ∧ translate (hub.windows.get .a) .slot 0 = .fails .labelReserved ∧
      ((withSlot slot).slot 0 = some slot ∧ slot.lineLabel = 7) ∧
      (∀ x ∈ ({ hub with slots := List.replicate 24 (some slot) } : State).slots, x ≠ none) ∧
      (∀ m sl, hub.slot m = some sl → sl.lineLabel ≠ 7) ∧ hub.slots[0]? = some none ∧
      ({ hub with slots := List.replicate 23 (some slot) ++ [none] } : State).slots[23]? = some none ∧
      (∀ m, m < 23 → (({ hub with slots := List.replicate 23 (some slot) ++ [none] } : State).slot m).isSome = true) ∧
      slot.owner = .a ∧ ({ slot with standIn := some standIn }).standIn = some standIn ∧ 16383 < (16384#16).toNat ∧
      16 < (List.replicate 17 (0 : Byte)).length ∧ (List.replicate 248 (0 : Byte)).length ≤ 248 :=
  ⟨by decide, by simp, by simp, by decide, by decide, by decide, by decide, fun m sl h => by simp [noSlot] at h, rfl, rfl,
    by decide, rfl, rfl, by decide, by decide, by decide⟩

/-- SlotsNamed: the numbers 23 and 24, a free slot, another port's, settings at the ends of their ranges. -/
theorem witness_SlotsNamed :
    two.Active .b ∧ 23 < (24 : Byte).toNat ∧ (23 : Byte).toNat ≤ 23 ∧ two.slot 23 = none ∧ (withSlot slot).slot 0 = some slot ∧
      slot.owner ≠ .b ∧ (1 ≤ 1 ∧ 7 ≤ 7) ∧ (1 < (2 : Byte).toNat ∧ 2 < (3 : Byte).toNat ∧ 3 < (4 : Byte).toNat ∧
        (0 : Byte).toNat = 0 ∧ 7 < (8 : Byte).toNat) ∧
      (16 < (List.replicate 253 (0 : Byte)).length ∧ (List.replicate 253 (0 : Byte)).length ≤ 253) ∧
      ((0#16).toNat = 0 ∧ 60000 < (60001#16).toNat) ∧ (List.replicate 16 (0 : Byte)).length ≤ 16 ∧
      (1 ≤ (1#16).toNat ∧ (60000#16).toNat ≤ 60000) ∧ (withSlot slot).line.inFlight = none ∧
      (withSlot { slot with standIn := some standIn }).slot 0 = some { slot with standIn := some standIn } := by decide

/-- SlotSettingsWritten: a stopped slot and a running one, an offset below the period and one at it, an edge and none. -/
theorem witness_SlotSettingsWritten :
    (withSlot slot).Active .a ∧ (withSlot slot).slot 0 = some slot ∧ slot.owner = .a ∧ slot.state = .stopped ∧
      running.state ≠ .stopped ∧ running.state ≠ .armed ∧ (withSlot running).slot 0 = some running ∧
      (99#16).toNat < slot.period ∧ ¬((100#16).toNat < slot.period) ∧ slot.pendingPeriod = none ∧
      ¬(StartSource.trigger .trig0 = .command ∨ (none : Option SlotEdge) ≠ none) ∧ some SlotEdge.both ≠ none ∧
      (20#16).toNat ≤ slot.offset ∧ slot.offset < (21#16).toNat := by decide

/-- SlotStartedAndStopped: a slot in each state, each start source, the latch clear and set. -/
theorem witness_SlotStartedAndStopped :
    (∀ st ∈ [SlotState.stopped, .armed, .running, .finishing, .halted .armed, .halted .running, .halted .finishing],
      (withSlot { slot with state := st }).slot 0 = some { slot with state := st } ∧
        (withSlot { slot with state := st }).Active .a) ∧
      slot.source = .command ∧ ({ slot with source := .trigger .trig0 }).source = .trigger .trig0 ∧
      (withSlot slot).quiet.latch = false ∧
      ({ withSlot slot with quiet := ⟨.none, true, false⟩ } : State).quiet.latch = true := by decide

/-- ExpiryPerformed: a due slot that is fresh, repeating, stale, covered, and at its takeover figure; and one that is not due. -/
theorem witness_ExpiryPerformed :
    (withSlot running).resetting = none ∧ (withSlot running).slot 0 = some running ∧ running.state = .running ∧
      running.nextExpiry = some 0 ∧ ({ running with pendingPayload := some [8] }).pendingPayload = some [8] ∧
      running.pendingPayload = none ∧ running.freshRequired = false ∧
      ({ running with freshRequired := true }).standIn = none ∧
      standIn.coveredRun + 1 < running.takeoverAfter ∧ running.takeoverAfter ≤ ({ standIn with coveredRun := 2 }).coveredRun + 1 ∧
      (slot.state ≠ .running ∧ slot.state ≠ .finishing) ∧ ({ running with nextExpiry := some 1 }).nextExpiry ≠ some 0 := by
  decide

/-- TriggerEdgeActs: an ARMED slot and a RUNNING one with REANCHOR that the edge selects, and a slot that ignores it. -/
theorem witness_TriggerEdgeActs :
    (withSlot slot).resetting = none ∧ hub.slot 0 = none ∧ (withSlot slot).slot 0 = some slot ∧
      slot.source ≠ .trigger .trig0 ∧
      (let sl : Slot := { slot with state := .armed, source := .trigger .trig0, edge := some .falling }
       (withSlot sl).slot 0 = some sl ∧ sl.source = .trigger .trig0 ∧ sl.edge = some .falling ∧ sl.state = .armed) ∧
      (let sl : Slot := { running with trigAction := .reanchor, source := .trigger .trig0, edge := some .both, offset := 0 }
       (withSlot sl).slot 0 = some sl ∧ sl.source = .trigger .trig0 ∧ sl.edge = some .both ∧ sl.state = .running ∧
        sl.trigAction = .reanchor) := by decide

/-- StandInCommands: a free slot, the port's own, one that has a stand-in, the label of the slot and another. -/
theorem witness_StandInCommands :
    (withSlot slot).Active .b ∧ 23 < (24 : Byte).toNat ∧ 16383 < (16384#16).toNat ∧ 16 < (List.replicate 251 (0 : Byte)).length ∧
      (List.replicate 251 (0 : Byte)).length ≤ 251 ∧ (0 : Byte).toNat ≤ 23 ∧ (List.replicate 16 (0 : Byte)).length ≤ 16 ∧ two.slot 0 = none ∧
      (withSlot slot).slot 0 = some slot ∧ slot.owner = .a ∧ slot.owner ≠ .b ∧ slot.standIn = none ∧
      ({ slot with standIn := some standIn }).standIn = some standIn ∧ standIn.port = .b ∧ standIn.port ≠ .a ∧
      translate ((withSlot slot).windows.get .b) .slot 7 = .label slot.lineLabel ∧
      translate ((withSlot slot).windows.get .b) .slot 8 = .label 8 ∧ (8 : Label) ≠ slot.lineLabel ∧
      translate ((withSlot slot).windows.get .b) .slot 0 = .fails .labelReserved := by decide

/-- LineSettingsWritten: no lease, the silence time at and outside its ends, a transmission in flight and none. -/
theorem witness_LineSettingsWritten :
    leased.Active .a ∧ leased.line.lease = some .a ∧ two.Active .a ∧ two.line.lease ≠ some .a ∧
      (50 ≤ (50#16).toNat ∧ (5000#16).toNat ≤ 5000) ∧ ¬(50 ≤ (49#16).toNat) ∧ ¬((5001#16).toNat ≤ 5000) ∧
      1 < (2 : Byte).toNat ∧ 3 < (4 : Byte).toNat ∧ 2 < (3 : Byte).toNat ∧
      leased.line.inFlight = none ∧ (flying .none).line.inFlight ≠ none ∧ (flying .none).line.lease = some .a ∧
      (flying .none).Active .a := by decide

/-- LineSwitched: the line OFF and not, a resync that changes the line state and one that does not. -/
theorem witness_LineSwitched :
    two.Active .a ∧ two.line.lease ≠ some .a ∧ leased.Active .a ∧ leased.line.lease = some .a ∧ leased.line.state = .off ∧
      onLine.Active .a ∧ onLine.line.state ≠ .off ∧ onLine.line.started.state = onLine.line.state ∧
      (searching.modLine (fun u => { u with rateMode := .fixed })).line.started.state ≠ searching.line.state := by decide

/-- ReceptionEnds: the receiver off and on, activity of its period and of another, each line state, each count around its limit, a clean telegram and an error. -/
theorem witness_ReceptionEnds :
    leased.resetting = none ∧ leased.line.state = .off ∧ (flying .none).line.inFlight ≠ none ∧
      judge ⟨1, false, telegram.octets⟩ = .clean telegram ∧ judge ⟨1, true, []⟩ = .codingError ∧
      onLine.line.receiverPeriod = 1 ∧ searching.line.receiverPeriod = 1 ∧ searching.line.state = .search ∧
      searching.line.cleanCount = 0 ∧ searching.line.inFlight = none ∧
      1 ≤ (searching.modLine (fun u => { u with cleanCount := 1 })).line.cleanCount ∧ onLine.line.state = .synced ∧
      onLine.line.errorCount + 1 < 32 ∧ 32 ≤ (onLine.modLine (fun u => { u with errorCount := 31 })).line.errorCount + 1 ∧
      (enterDegraded onLine).line.state = .degraded := by decide

/-- A general wake telegram, offered from the line. -/
def generalWake : Offer := ⟨⟨.wake, 0, []⟩, 3, none⟩

/-- OfferTaken: the first and the second general wake telegram; a DOZING port that both causes reach, and one that only one
does; a slot that answers a QUERY, one that does not, and none. -/
theorem witness_OfferTaken :
    (generalWake.telegram.kind = .wake ∧ generalWake.telegram.label = 0) ∧ hub.detector = none ∧
      ({ hub with detector := some ⟨0, none, 5⟩ } : State).detector = some ⟨0, none, 5⟩ ∧ generalWake.excluded ≠ some .a ∧
      ((timedOut .dozing).unit .a).state = .dozing ∧ ((timedOut .dozing).unit .a).wakeSet = ⟨true, true, true⟩ ∧
      (generalWake.decide (routed entry (timedOut .dozing)) .a).wake = some 0 ∧
      (generalWake.decide (timedOut .dozing) .a).wake = none ∧ (hub.unit .a).state ≠ .dozing ∧
      telegram.kind = .query ∧ generalWake.telegram.kind ≠ .query ∧
      (let sl : Slot := { running with lineLabel := 5, answerQueries := true }
       sl.lineLabel = telegram.label ∧ sl.answerQueries = true ∧ sl.state = .running ∧ sl.freshRequired = false ∧
        sl.due = none) ∧ slot.answerQueries = false := by decide

/-- Port A's presence timer and its one slot's timer both at 0. -/
def twoDue : State := (timedOut .active).setSlot 0 (some running)

theorem twoDue_slot {n : Nat} {sl : Slot} (h : twoDue.slot n = some sl) : n = 0 ∧ sl = running := by
  rw [State.slot_eq_some] at h
  match n with
  | 0 => simp [twoDue, timedOut, hub, State.reset, Config.slotCount] at h; simp [h]
  | k + 1 =>
    change (List.replicate 23 (none : Option Slot))[k]? = some (some sl) at h
    rw [List.getElem?_replicate] at h
    split at h <;> cases h

theorem twoDue_sound : SlotsSafe twoDue := by
  refine ⟨rfl, fun sl h => ?_, fun m n x y hx hy _ => ?_⟩
  · obtain ⟨n, hn⟩ := List.mem_iff_getElem?.1 h
    obtain ⟨-, rfl⟩ := twoDue_slot (State.slot_eq_some.2 hn)
    simp [Slot.Sound, running, slot, Slot.created, SlotState.runs, Config.maxPeriod, Config.runLimit, twoDue, timedOut, hub,
      State.reset]
  · exact (twoDue_slot hx).1.trans (twoDue_slot hy).1.symm

/-- TimersAndTick: each timer ended and not; a wake set with TIMER; no expiry due, one that leaves none, and two at a hub of
sound slots. -/
theorem witness_TimersAndTick :
    searching.resetting = none ∧ searching.line.state = .search ∧ searching.line.dwellTimer ≠ some 0 ∧
      (searching.modLine (fun u => { u with dwellTimer := some 0 })).line.dwellTimer = some 0 ∧ onLine.line.state = .synced ∧
      (onLine.modLine (fun u => { u with silenceTimer := some 0 })).line.silenceTimer = some 0 ∧
      onLine.line.silenceTimer ≠ some 0 ∧ (⟨0, none, 0⟩ : Remembered).left = 0 ∧ (⟨0, none, 1⟩ : Remembered).left ≠ 0 ∧
      ((timedOut .dozing).unit .a).wakeTimer = some 0 ∧ ((timedOut .dozing).unit .a).wakeSet.timer = true ∧
      onLine.dueExpiries = [] ∧ (withSlot running).dueExpiries = [.slot 0] ∧
      (takeExpiry (.slot 0) (withSlot running)).dueExpiries = [] ∧ SlotsSafe twoDue ∧
      twoDue.dueExpiries = [.presence .a, .slot 0] :=
  ⟨by decide, by decide, by decide, by decide, by decide, by decide, by decide, by decide, by decide, by decide, by decide,
    by decide, by decide, by decide, twoDue_sound, by decide⟩

/-- DozeTaken: the first set out of range, TIMER with periods 9 and 10, the selective check met and not, a WAKE-marked record
and none; a port that holds the lease and one that does not. -/
theorem witness_DozeTaken :
    hub.Active .a ∧ 8 ≤ (8 : Byte).toNat ∧ ((4 : Byte).getLsbD 2 = true ∧ (9#16).toNat < 10) ∧ 10 ≤ (10#16).toNat ∧
      (∃ n e, (routed entry searching).route n = some e ∧ e.owner = .a ∧ e.action = .deliver ∧ e.wake = true) ∧
      (routed entry searching).line.state = .search ∧ hub.line.state ≠ .search ∧ hub.line.state ≠ .synced ∧
      (∃ r ∈ [{ record with wakeMark := true }], r.wakeMark = true) ∧ (¬∃ r ∈ [record], r.wakeMark = true) ∧
      leased.line.lease = some .a ∧ hub.line.lease ≠ some .a :=
  ⟨by decide, by decide, by decide, by decide, ⟨0, entry, by decide⟩, by decide, by decide, by decide, by decide, by decide,
    by decide, by decide⟩

/-- ResumeAndWakeRule: a DOZING and a WAKING port; a cause that is admitted, one that is not, one that meets no DOZING port. -/
theorem witness_ResumeAndWakeRule :
    (timedOut .dozing).Ready .a ∧ ((timedOut .dozing).unit .a).state = .dozing ∧ (timedOut .waking).Ready .a ∧
      ((timedOut .waking).unit .a).state = .waking ∧ ((timedOut .dozing).unit .a).wakeSet.general = true ∧
      ¬(WakeSet.empty.selective = true) ∧ (hub.unit .a).state ≠ .dozing := by decide

/-- QuietInputActs: each code, the level active and not, the latch set and clear, an edge that acts and one that does not; a
HALTED slot of number 0 and of number 23, beside a set latch, whose owner and another port are ACTIVE; a STOPPED slot of each
start source, beside a clear latch and a selection that admits the edge. -/
theorem witness_QuietInputActs :
    leased.Active .a ∧ leased.line.lease = some .a ∧ two.line.lease ≠ some .a ∧ 3 < (4 : Byte).toNat ∧ (3 : Byte).toNat = 3 ∧
      (let q : QuietInput := ⟨.rising, true, true⟩; q.selection = .rising ∧ q.pin = true) ∧
      (let q : QuietInput := ⟨.both, true, true⟩; q.selection ≠ .rising ∧ q.selection ≠ .falling ∧ q.latch = true) ∧
      leased.quiet.latch = false ∧ slot.owner = .a ∧
      (∀ h ∈ [HeldState.armed, .running, .finishing], ∀ n ∈ [0, 23],
        let t := quieted n { slot with state := .halted h }
        t.Active .a ∧ t.Active .b ∧ t.slot n = some { slot with state := .halted h } ∧ t.quiet.latch = true ∧
          t.quiet.selection ≠ .rising ∧ t.quiet.selection ≠ .falling) ∧
      (∀ source ∈ [StartSource.command, .trigger .trig1], ∀ n ∈ [0, 23],
        let sl : Slot := { slot with source := source }
        let t : State := { quieted n sl with quiet := ⟨.rising, false, false⟩ }
        t.Active .a ∧ t.slot n = some sl ∧ sl.owner = .a ∧ sl.state = .stopped ∧ sl.nextExpiry = none ∧
          t.quiet.latch = false ∧ t.quiet.selection = .rising) ∧
      leased.resetting = none ∧ leased.loader.state = .ready ∧ leased.quiet.selection = .none ∧
      ({ leased with quiet := ⟨.falling, false, true⟩ } : State).quiet.selection = .falling := by decide

/-- DeviceReset: a hub in a device reset and one that is not. -/
theorem witness_DeviceReset :
    ({ hub with resetting := some .powerOn } : State).resetting = some .powerOn ∧ hub.resetting = none := by decide

/-- LoadEnds: a loading hub with its limit reached, an image that fails, one of another length, one that passes, and a READY
hub. -/
theorem witness_LoadEnds :
    loading.resetting = none ∧ loading.loader.state = .loading ∧ loading.line.state = .off ∧
      ({ loading with loader := { loading.loader with timer := some 0 } } : State).loader.timer = some 0 ∧
      readImage (image 0) = none ∧ ([] : List Byte).length ≠ 262 ∧ (readImage (image 0xF4F4)).map (fun i => (i.lineOn, i.rateMode)) = some (true, .auto) ∧
      hub.loader.state = .ready := by decide +kernel

/-- ImageChecked: an image of 262 octets. -/
theorem witness_ImageChecked : (image 0).length = 262 ∧ (readImage (image 0xF4F4)).isSome = true := by decide +kernel

/-- LineStaysSafe: a LOADING hub, its transfer under way, steps. -/
theorem witness_LineStaysSafe_loading : LoaderSafe loading ∧ loading.loader.transfer ≠ [] ∧ ∃ t, step loading = .next t :=
  ⟨⟨fun _ => rfl, fun h => absurd ⟨rfl, rfl⟩ h, fun _ => ⟨rfl, rfl⟩, fun _ => rfl⟩, by decide, _, rfl⟩

/-- LineStaysSafe, PortsStaySafe: a SYNCED line with a transmission in flight, the lease held, steps. -/
theorem witness_LineStaysSafe_PortsStaySafe :
    LineSafe (flying .none) ∧ DriveSafe (flying .none) ∧ LeaseSafe (flying .none) ∧ WakeSafe (flying .none) ∧
      ∃ t, step (flying .none) = .next t := by
  refine ⟨⟨by show (0 : Nat) < 32; decide, by decide, by decide, by decide, by decide, by decide⟩,
    ⟨by decide, ?_, by decide⟩, ?_, ?_, _, rfl⟩
  · intro m hm; exact absurd hm (by simp [flying, waiting, onLine, leased, two, hub, LineUnit.started,
      LineUnit.abandonReception, State.reset, LineUnit.atReset])
  · intro p hp; cases p <;> first | rfl | exact absurd hp (by decide)
  · intro p; cases p <;> exact ⟨by decide, by decide, by decide, by decide, by decide⟩

/-- TablesStaySafe: a hub with a route entry. -/
theorem witness_TablesStaySafe :
    WindowsSafe (routed entry hub) ∧ RoutesSafe (routed entry hub) ∧ ∃ t, step (routed entry hub) = .next t := by
  refine ⟨fun p => ?_, ⟨by decide, fun p => by cases p <;> decide, ?_⟩, _, rfl⟩
  · cases p <;> exact ⟨⟨by decide, by decide⟩, ⟨by decide, by decide⟩⟩
  · intro e he
    change some e ∈ some entry :: List.replicate 63 none at he
    rcases List.mem_cons.1 he with h | h
    · cases h; exact ⟨by decide, by decide, by decide, trivial, trivial⟩
    · cases (List.mem_replicate.1 h).2

/-- QueuesStaySafe: a hub with a record and a queue entry. -/
theorem witness_QueuesStaySafe :
    PoolSafe (waiting.setRx .a ⟨[record], 16, 64, .dropNewest⟩) ∧ TxSafe (waiting.setRx .a ⟨[record], 16, 64, .dropNewest⟩) ∧
      ∃ t, step (waiting.setRx .a ⟨[record], 16, 64, .dropNewest⟩) = .next t := by
  refine ⟨⟨by decide, by decide, fun p => ?_, fun h => absurd h (by decide)⟩, fun p => ⟨?_, ?_, ?_⟩, _, rfl⟩
  · cases p <;> exact ⟨⟨by decide, by decide, by decide, by decide⟩, ⟨by decide, by decide, by decide, by decide⟩⟩
  · cases p <;> decide
  · intro e he
    cases p with
    | a =>
      have h : e = query := by simpa [waiting] using he
      subst h; exact ⟨by decide, by decide, by decide, by decide⟩
    | b => exact absurd he (by simp [waiting, onLine, leased, two, hub, State.reset, TxQueue.atReset, Quad.all, Quad.get, Quad.set])
    | c => exact absurd he (by simp [waiting, onLine, leased, two, hub, State.reset, TxQueue.atReset, Quad.all, Quad.get, Quad.set])
    | d => exact absurd he (by simp [waiting, onLine, leased, two, hub, State.reset, TxQueue.atReset, Quad.all, Quad.get, Quad.set])
  · cases p <;> decide

/-- OwnershipStaysSafe, SlotsStaySafe: the hub of `witness_TeardownReleases`. -/
theorem witness_OwnershipStaysSafe_SlotsStaySafe :
    OwnershipSafe (owned .none) ∧ SlotsSafe (owned .none) ∧ ∃ t, step (owned .none) = .next t :=
  ⟨(witness_TeardownReleases .none).2.1, (witness_TeardownReleases .none).1, _, rfl⟩

end Sys2Proof.Tests
end

