-- ==== Sys2Proof/Proofs/Windows.lean ====
section
/-! PROOF. The translation of a local label through a port's windows (02, R27, R28). -/

namespace Sys2Proof.Machine

/-! ## One window -/

theorem Window.hits_iff (w : Window) (l : Label) :
    w.hits l = true ↔ w.enabled = true ∧ l &&& w.mask = w.base := by
  simp [Window.hits]

theorem Window.hits_eq_false_iff (w : Window) (l : Label) :
    w.hits l = false ↔ ¬(w.enabled = true ∧ l &&& w.mask = w.base) := by
  rw [← Window.hits_iff, Bool.not_eq_true]

/-- A value within a mask has no bit at a position the mask leaves out. -/
theorem getLsbD_eq_false_of_within {value mask : Label} (h : within value mask = true) {k : Nat}
    (hk : mask.getLsbD k = false) : value.getLsbD k = false := by
  have outside : value &&& ~~~mask = 0 := by simpa [within] using h
  rcases Nat.lt_or_ge k 14 with hlt | hge
  · have bit : (value &&& ~~~mask).getLsbD k = false := by rw [outside, BitVec.ofNat_eq_ofNat, BitVec.getLsbD_zero]
    simpa only [BitVec.getLsbD_and, BitVec.getLsbD_not, hlt, hk, decide_true, Bool.not_false, Bool.and_true] using bit
  · exact BitVec.getLsbD_of_ge value k hge

theorem Window.within_map_of_inMask {w : Window} (h : w.inMask = true) : within w.map w.mask = true :=
  (Bool.and_eq_true_iff.1 h).2

/-- The translation bit by bit: the map's bit inside the mask, the label's bit outside it. The map must lie within the
mask (R26): the model sets the map's bits at every position. -/
theorem Window.getLsbD_translate {w : Window} (h : w.inMask = true) (l : Label) {k : Nat} (hk : k < 14) :
    (w.translate l).getLsbD k = if w.mask.getLsbD k = true then w.map.getLsbD k else l.getLsbD k := by
  have bit : (w.translate l).getLsbD k = (l.getLsbD k && !w.mask.getLsbD k || w.map.getLsbD k) := by
    simp only [Window.translate, BitVec.getLsbD_or, BitVec.getLsbD_and, BitVec.getLsbD_not, hk, decide_true,
      Bool.true_and]
  cases hm : w.mask.getLsbD k with
  | true => simp [bit, hm]
  | false =>
    have hmap := getLsbD_eq_false_of_within (Window.within_map_of_inMask h) hm
    simp [bit, hm, hmap]

/-- The bits R27 names fix the line label. -/
theorem Window.translate_eq_of_bits {w : Window} (h : w.inMask = true) {l line : Label}
    (bits : ∀ k, k < 14 → line.getLsbD k = if w.mask.getLsbD k = true then w.map.getLsbD k else l.getLsbD k) :
    w.translate l = line :=
  BitVec.eq_of_getLsbD_eq fun k hk => (Window.getLsbD_translate h l hk).trans (bits k hk).symm

/-! ## A port's windows -/

theorem translate_of_no_hit {ws : List Window} {l : Label} (h : ∀ w ∈ ws, w.hits l = false) (perm : Permission) :
    translate ws perm l = .fails .noWindow := by
  have none_found : ws.find? (·.hits l) = none := List.find?_eq_none.2 fun w hw => by simp [h w hw]
  simp [translate, none_found]

/-- The deciding window alone answers, whatever stands behind it. -/
theorem translate_of_first_hit {before : List Window} {w : Window} {l : Label}
    (hbefore : ∀ x ∈ before, x.hits l = false) (hw : w.hits l = true) (after : List Window) (perm : Permission) :
    translate (before ++ w :: after) perm l =
      if w.allows perm then
        if w.translate l = 0 then .fails .labelReserved else .label (w.translate l)
      else .fails .notPermitted := by
  have found : (before ++ w :: after).find? (·.hits l) = some w :=
    List.find?_eq_some_iff_append.2 ⟨hw, before, after, rfl, fun x hx => by simp [hbefore x hx]⟩
  simp [translate, found]

/-- Settles O22: the bits of the line label fix the deciding window's translation, and the three outcomes are the branches
of `translate_of_first_hit`. -/
theorem translationDecides : Obligations.TranslationDecides := by
  intro ws perm l
  refine ⟨fun miss => ?_, ?_, fun w => ⟨rfl, rfl, rfl⟩⟩
  · exact translate_of_no_hit (fun w hw => (w.hits_eq_false_iff l).2 (miss w hw)) perm
  · rintro before after w line rfl miss enabled based inside bits
    have decides := translate_of_first_hit (fun x hx => (x.hits_eq_false_iff l).2 (miss x hx))
      ((w.hits_iff l).2 ⟨enabled, based⟩) after perm
    rw [Window.translate_eq_of_bits inside bits] at decides
    refine ⟨fun denied => ?notPermitted, fun allowed zero => ?labelReserved, fun allowed nonzero => ?label⟩
    case notPermitted => rw [decides, if_neg (ne_true_of_eq_false denied)]
    case labelReserved => rw [decides, if_pos allowed, if_pos zero]
    case label => rw [decides, if_pos allowed, if_neg nonzero]

end Sys2Proof.Machine
end

