-- ==== Sys2Proof/Proofs/Routes.lean ====
section
/-! PROOF. The route table: when an entry matches, which entry decides, and the commands that name entries (03, R38 to R42,
R51 to R53). -/

namespace Sys2Proof.Machine

/-! ## Reading an entry -/

theorem State.route_eq_some {s : State} {n : Nat} {e : RouteEntry} :
    s.route n = some e ↔ s.routes[n]? = some (some e) := by
  simp only [State.route, List.getD_eq_getElem?_getD]
  cases s.routes[n]? <;> simp

/-! ## The tests of an entry (R38 to R40) -/

/-- The masked octets of the data tests, octet by octet: `getD` gives the 0 of R40 for an octet beyond the payload. -/
theorem maskOctets_firstEight (payload : List Byte) {mask : List Byte} (h : mask.length = 8) :
    maskOctets (firstEight payload) mask = (List.range 8).map fun k => payload.getD k 0 &&& mask.getD k 0 := by
  refine List.ext_getElem (by simp [maskOctets, firstEight, h]) fun k hk hk' => ?_
  have hk8 : k < 8 := by simpa using hk'
  have padded : (firstEight payload)[k]'(by simp [firstEight, hk8]) = payload.getD k 0 := by
    rcases Nat.lt_or_ge k payload.length with inside | beyond
    · simp [firstEight, List.getElem_append_left, inside]
    · simp only [firstEight, List.getElem_take, List.getElem_append_right beyond, List.getElem_replicate,
        List.getD_eq_default _ _ beyond]
  simp only [maskOctets, List.getElem_zipWith, List.getElem_map, List.getElem_range, padded]
  rw [List.getD_eq_getElem mask 0 (h ▸ hk8)]

theorem DataTest.anySet_holds_iff (payload : List Byte) {mask : List Byte} (h : mask.length = 8) :
    (DataTest.anySet mask).holds payload = true ↔ ∃ k, k < 8 ∧ payload.getD k 0 &&& mask.getD k 0 ≠ 0 := by
  simp only [DataTest.holds, maskOctets_firstEight payload h, List.any_map, List.any_eq_true, List.mem_range,
    Function.comp_apply, bne_iff_ne]

theorem DataTest.equal_holds_iff (payload : List Byte) {mask value : List Byte} (h : mask.length = 8)
    (hv : value.length = 8) :
    (DataTest.equal mask value).holds payload = true ↔
      ∀ k, k < 8 → payload.getD k 0 &&& mask.getD k 0 = value.getD k 0 := by
  have octets : value = (List.range 8).map fun k => value.getD k 0 :=
    List.ext_getElem (by simp [hv]) fun k hk _ => by simp [hk]
  simp only [DataTest.holds, beq_iff_eq]
  conv_lhs => rw [maskOctets_firstEight payload h, octets]
  simp only [List.map_inj_left, List.mem_range]

theorem LengthTest.holds_iff (l : LengthTest) (n : Nat) : l.holds n = true ↔ l = .any ∨ l = .exact n := by
  cases l with
  | any => simp [LengthTest.holds]
  | exact k => simpa [LengthTest.holds] using eq_comm

theorem RouteEntry.matches_iff (e : RouteEntry) (t : Telegram) :
    e.matches t = true ↔ t.label &&& e.labelMask = e.labelBase ∧ e.kinds.contains t.kind = true ∧
      (e.lengthTest = .any ∨ e.lengthTest = .exact t.payload.length) ∧ e.dataTest.holds t.payload = true := by
  simp only [RouteEntry.matches, Bool.and_eq_true, beq_iff_eq, LengthTest.holds_iff, and_assoc]

/-! ## The live entries that pass a test, with their numbers

The candidates of R42 and the numbers of R53 are both such a list. -/

/-- An entry with its number, when it is live and passes the test. -/
def numberedIf (test : RouteEntry → Bool) : Option RouteEntry × Nat → Option (Nat × RouteEntry)
  | (none, _) => none
  | (some e, n) => if test e then some (n, e) else none

/-- The live entries that pass the test, with their numbers, in the order of the table. -/
def numbered (test : RouteEntry → Bool) (start : Nat) (routes : List (Option RouteEntry)) : List (Nat × RouteEntry) :=
  (routes.zipIdx start).filterMap (numberedIf test)

theorem numberedIf_eq_some {test : RouteEntry → Bool} {x : Option RouteEntry × Nat} {n : Nat} {e : RouteEntry} :
    numberedIf test x = some (n, e) ↔ x = (some e, n) ∧ test e = true := by
  obtain ⟨_ | f, m⟩ := x
  · simp [numberedIf]
  · simp only [numberedIf, Option.ite_none_right_eq_some, Option.some.injEq, Prod.mk.injEq]
    grind

theorem mem_numbered {test : RouteEntry → Bool} {routes : List (Option RouteEntry)} {n : Nat} {e : RouteEntry} :
    (n, e) ∈ numbered test 0 routes ↔ routes[n]? = some (some e) ∧ test e = true := by
  simp only [numbered, List.mem_filterMap, numberedIf_eq_some]
  constructor
  · rintro ⟨_, hx, rfl, passes⟩
    exact ⟨List.mk_mem_zipIdx_iff_getElem?.1 hx, passes⟩
  · rintro ⟨live, passes⟩
    exact ⟨_, List.mk_mem_zipIdx_iff_getElem?.2 live, rfl, passes⟩

theorem numbered_ascending (test : RouteEntry → Bool) (start : Nat) (routes : List (Option RouteEntry)) :
    (numbered test start routes).Pairwise fun a b => a.1 < b.1 := by
  have indices : (routes.zipIdx start).Pairwise fun x y => x.2 < y.2 := by
    rw [← List.pairwise_map (f := Prod.snd) (R := (· < ·)), List.zipIdx_map_snd]
    exact List.pairwise_lt_range'
  refine List.Pairwise.filterMap _ (fun x y hxy a ha b hb => ?_) indices
  obtain ⟨rfl, -⟩ := numberedIf_eq_some.1 ha
  obtain ⟨rfl, -⟩ := numberedIf_eq_some.1 hb
  exact hxy

theorem routeCandidates_eq_numbered (p : Port) (t : Telegram) (start : Nat) (routes : List (Option RouteEntry)) :
    routeCandidates p t start routes = numbered (fun e => e.owner == p && e.matches t) start routes := by
  induction routes generalizing start with
  | nil => rfl
  | cons slot rest ih =>
    cases slot with
    | none => exact ih (start + 1)
    | some e =>
      simp only [routeCandidates, ih, numbered, List.zipIdx_cons, List.filterMap_cons, numberedIf, Bool.and_eq_true,
        beq_iff_eq]
      split <;> rfl

theorem routeNumbers_eq_numbered (p : Port) (start : Nat) (routes : List (Option RouteEntry)) :
    routeNumbers p start routes = (numbered (fun e => e.owner == p) start routes).map Prod.fst := by
  induction routes generalizing start with
  | nil => rfl
  | cons slot rest ih =>
    cases slot with
    | none => exact ih (start + 1)
    | some e =>
      simp only [routeNumbers, ih, numbered, List.zipIdx_cons, List.filterMap_cons, numberedIf, beq_iff_eq]
      split <;> rfl

/-! ## The deciding entry (R42) -/

/-- Entry `n` is live, is the port's and matches the telegram. -/
def IsCandidate (routes : List (Option RouteEntry)) (p : Port) (t : Telegram) (n : Nat) (e : RouteEntry) : Prop :=
  routes[n]? = some (some e) ∧ e.owner = p ∧ e.matches t = true

/-- The order of R42: the lower rank first, among equal ranks the lower number. -/
def Precedes (a b : Nat × RouteEntry) : Prop := a.2.rank < b.2.rank ∨ (a.2.rank = b.2.rank ∧ a.1 ≤ b.1)

theorem Precedes.refl (a : Nat × RouteEntry) : Precedes a a := .inr ⟨rfl, Nat.le_refl _⟩

theorem Precedes.trans {a b c : Nat × RouteEntry} (h : Precedes a b) (k : Precedes b c) : Precedes a c := by
  simp only [Precedes] at *
  omega

theorem Precedes.number_eq {a b : Nat × RouteEntry} (h : Precedes a b) (k : Precedes b a) : a.1 = b.1 := by
  simp only [Precedes] at *
  omega

theorem mem_routeCandidates {routes : List (Option RouteEntry)} {p : Port} {t : Telegram} {n : Nat} {e : RouteEntry} :
    (n, e) ∈ routeCandidates p t 0 routes ↔ IsCandidate routes p t n e := by
  rw [routeCandidates_eq_numbered, mem_numbered, Bool.and_eq_true, beq_iff_eq, IsCandidate]

theorem lowestRank_eq_none_iff (cs : List (Nat × RouteEntry)) : lowestRank cs = none ↔ cs = [] := by
  cases cs with
  | nil => simp [lowestRank]
  | cons c rest =>
    simp only [lowestRank, reduceCtorEq, iff_false]
    split
    · simp
    · split <;> simp

/-- A later candidate decides only by a strictly lower rank, so in an ascending list a tie goes to the lower number. -/
theorem lowestRank_precedes {cs : List (Nat × RouteEntry)} (ascending : cs.Pairwise fun a b => a.1 < b.1)
    {d : Nat × RouteEntry} (h : lowestRank cs = some d) : d ∈ cs ∧ ∀ c ∈ cs, Precedes d c := by
  induction cs generalizing d with
  | nil => simp [lowestRank] at h
  | cons c rest ih =>
    obtain ⟨lower, ascending⟩ := List.pairwise_cons.1 ascending
    cases hrest : lowestRank rest with
    | none =>
      obtain rfl := (lowestRank_eq_none_iff rest).1 hrest
      obtain rfl : c = d := by simpa [lowestRank] using h
      simp [Precedes.refl]
    | some r =>
      obtain ⟨hr, first⟩ := ih ascending hrest
      by_cases outranks : r.2.rank < c.2.rank
      · obtain rfl : r = d := by simpa [lowestRank, hrest, outranks] using h
        exact ⟨.tail _ hr, List.forall_mem_cons.2 ⟨.inl outranks, first⟩⟩
      · obtain rfl : c = d := by simpa [lowestRank, hrest, outranks] using h
        have before : Precedes c r := by
          have number := lower r hr
          simp only [Precedes]
          omega
        exact ⟨.head _, List.forall_mem_cons.2 ⟨.refl c, fun x hx => before.trans (first x hx)⟩⟩

theorem decidingEntry_eq_none_iff (routes : List (Option RouteEntry)) (p : Port) (t : Telegram) :
    decidingEntry routes p t = none ↔ ∀ n e, ¬IsCandidate routes p t n e := by
  simp only [decidingEntry, lowestRank_eq_none_iff, List.eq_nil_iff_forall_not_mem, Prod.forall, mem_routeCandidates]

theorem decidingEntry_precedes {routes : List (Option RouteEntry)} {p : Port} {t : Telegram} {n : Nat} {e : RouteEntry}
    (h : decidingEntry routes p t = some (n, e)) :
    IsCandidate routes p t n e ∧ ∀ m f, IsCandidate routes p t m f → Precedes (n, e) (m, f) := by
  have ascending : (routeCandidates p t 0 routes).Pairwise fun a b => a.1 < b.1 := by
    rw [routeCandidates_eq_numbered]
    exact numbered_ascending _ _ _
  obtain ⟨mem, first⟩ := lowestRank_precedes ascending h
  exact ⟨mem_routeCandidates.1 mem, fun m f hf => first (m, f) (mem_routeCandidates.2 hf)⟩

/-- Two candidates that precede each other have one number, and the table holds one entry under it. -/
theorem decidingEntry_eq_some_iff (routes : List (Option RouteEntry)) (p : Port) (t : Telegram) (n : Nat)
    (e : RouteEntry) :
    decidingEntry routes p t = some (n, e) ↔
      IsCandidate routes p t n e ∧ ∀ m f, IsCandidate routes p t m f → Precedes (n, e) (m, f) := by
  refine ⟨decidingEntry_precedes, fun ⟨candidate, first⟩ => ?_⟩
  cases decided : decidingEntry routes p t with
  | none => exact absurd candidate ((decidingEntry_eq_none_iff routes p t).1 decided n e)
  | some d =>
    obtain ⟨m, f⟩ := d
    obtain ⟨candidate', first'⟩ := decidingEntry_precedes decided
    obtain rfl : m = n := (first' n e candidate).number_eq (first m f candidate')
    have same : some (some f) = some (some e) := candidate'.1.symm.trans candidate.1
    rw [Option.some.inj (Option.some.inj same)]

/-- Settles O25: the tests of an entry one by one, and the deciding entry as the first candidate in the order of R42. -/
theorem entriesMatchAndDecide : Obligations.EntriesMatchAndDecide := by
  refine ⟨fun e t => ⟨?tests, rfl, fun _ => DataTest.anySet_holds_iff t.payload,
    fun _ _ => DataTest.equal_holds_iff t.payload⟩, fun routes p t => ⟨fun n e => ?decides, ?none⟩⟩
  case tests =>
    rw [RouteEntry.matches_iff]
    cases hk : t.kind <;> rfl
  case decides =>
    simp only [decidingEntry_eq_some_iff, IsCandidate, Precedes, and_assoc, and_imp]
  case none =>
    simp only [decidingEntry_eq_none_iff, IsCandidate, not_and, Bool.not_eq_true]

/-! ## The numbers of a port's entries (R53) -/

/-- Entry `n` is live and is port `p`'s. -/
def State.owns (s : State) (p : Port) (n : Nat) : Bool :=
  match s.route n with
  | some e => e.owner == p
  | none => false

theorem State.owns_iff {s : State} {p : Port} {n : Nat} :
    s.owns p n = true ↔ ∃ e, s.routes[n]? = some (some e) ∧ e.owner = p := by
  simp only [State.owns, ← State.route_eq_some]
  cases s.route n <;> simp

theorem mem_routeNumbers {s : State} {p : Port} {n : Nat} : n ∈ routeNumbers p 0 s.routes ↔ s.owns p n = true := by
  simp only [routeNumbers_eq_numbered, List.mem_map, Prod.exists, mem_numbered, State.owns_iff, beq_iff_eq,
    exists_eq_right, exists_and_right]

theorem routeNumbers_ascending (p : Port) (start : Nat) (routes : List (Option RouteEntry)) :
    (routeNumbers p start routes).Pairwise (· < ·) := by
  rw [routeNumbers_eq_numbered]
  exact (numbered_ascending _ start routes).map _ fun _ _ h => h

/-- Both lists ascend and hold the same numbers. -/
theorem routeNumbers_eq_filter (s : State) (p : Port) :
    routeNumbers p 0 s.routes = (List.range s.routes.length).filter (s.owns p) := by
  refine (routeNumbers_ascending p 0 s.routes).eq_of_mem_iff (List.pairwise_lt_range.filter _) fun n => ?_
  have inside : s.owns p n = true → n < s.routes.length := fun h =>
    have ⟨_, live, _⟩ := State.owns_iff.1 h
    (List.getElem?_eq_some_iff.1 live).1
  rw [mem_routeNumbers, List.mem_filter, List.mem_range]
  exact ⟨fun h => ⟨inside h, h⟩, And.right⟩

/-! ## The blocks of ROUTE_REMOVE and ROUTE_READ (R51, R52) -/

theorem routeRemoveBody_outOfRange {n : Byte} (h : 63 < n.toNat) (p : Port) (s : State) :
    routeRemoveBody p [n] s = refuse s .outOfRange := if_pos h

theorem routeReadBody_outOfRange {n : Byte} (h : 63 < n.toNat) (s : State) :
    routeReadBody [n] s = refuse s .outOfRange := if_pos h

theorem routeRemoveBody_free {n : Byte} (h : n.toNat ≤ 63) {s : State} (free : s.route n.toNat = none) (p : Port) :
    routeRemoveBody p [n] s = refuse s .badIndex := by
  simp [routeRemoveBody, Config.routeEntries, Nat.not_le.2 (Nat.lt_succ_of_le h), free]

theorem routeReadBody_free {n : Byte} (h : n.toNat ≤ 63) {s : State} (free : s.route n.toNat = none) :
    routeReadBody [n] s = refuse s .badIndex := by
  simp [routeReadBody, Config.routeEntries, Nat.not_le.2 (Nat.lt_succ_of_le h), free]

theorem routeRemoveBody_live {n : Byte} (h : n.toNat ≤ 63) {s : State} {e : RouteEntry} (live : s.route n.toNat = some e)
    (p : Port) :
    routeRemoveBody p [n] s =
      if e.owner = p then accept { s with routes := s.routes.set n.toNat none } [] else refuse s .notOwner := by
  simp [routeRemoveBody, Config.routeEntries, Nat.not_le.2 (Nat.lt_succ_of_le h), live]

theorem routeReadBody_live {n : Byte} (h : n.toNat ≤ 63) {s : State} {e : RouteEntry}
    (live : s.route n.toNat = some e) : routeReadBody [n] s = accept s (n :: portCode e.owner :: e.octets) := by
  simp [routeReadBody, Config.routeEntries, Nat.not_le.2 (Nat.lt_succ_of_le h), live]

/-! ## The commands of an ACTIVE port -/

theorem exec_routeRemove_of_active {p : Port} {s : State} (hs : s.Active p) (n : Byte) (filler : List Byte) :
    exec (.routeRemove p (clockedIn [n] filler)) s =
      let r := routeRemoveBody p [n] (s.found p (clockedIn [n] filler))
      .next (r.1.setHolder p r.2) :=
  congrArg Host.Outcome.next (portCommand_activeIn hs (by simp) rfl rfl)

theorem exec_routeRead_of_active {p : Port} {s : State} (hs : s.Active p) (n : Byte) (filler : List Byte) :
    exec (.routeRead p (clockedIn [n] filler)) s =
      let r := routeReadBody [n] (s.found p (clockedIn [n] filler))
      .next (r.1.setHolder p r.2) :=
  congrArg Host.Outcome.next (portCommand_activeIn hs (by simp) rfl rfl)

theorem exec_routeList_of_active {p : Port} {s : State} (hs : s.Active p) (filler : List Byte) :
    exec (.routeList p (clockedIn [] filler)) s =
      let r := routeListBody p [] (s.found p (clockedIn [] filler))
      .next (r.1.setHolder p r.2) :=
  congrArg Host.Outcome.next (portCommand_activeIn hs (by simp) rfl rfl)

/-- Settles O24: each outcome is the block's on the state the command finds, which has the table of `s`. -/
theorem routeEntriesNamed : Obligations.RouteEntriesNamed := by
  refine ⟨fun p n filler s hs => ?_, fun p filler s hs length => ?list⟩
  case list =>
    simp only [exec_routeList_of_active hs, routeListBody, State.found_routes, routeNumbers_eq_filter, length]
    rfl
  simp only [exec_routeRemove_of_active hs, exec_routeRead_of_active hs]
  refine ⟨fun above => ⟨?_, ?_⟩, fun inside free => ⟨?_, ?_⟩,
    fun e inside live => ⟨fun foreign => ?_, fun own => ?_, ?read⟩⟩
  · rw [routeRemoveBody_outOfRange above]; rfl
  · rw [routeReadBody_outOfRange above]; rfl
  · rw [routeRemoveBody_free inside (by simpa using free)]; rfl
  · rw [routeReadBody_free inside (by simpa using free)]; rfl
  · rw [routeRemoveBody_live inside (e := e) (by simpa using live), if_neg foreign]; rfl
  · rw [routeRemoveBody_live inside (e := e) (by simpa using live), if_pos own]; rfl
  case read =>
    rw [routeReadBody_live inside (e := e) (by simpa using live)]
    cases hd : e.dataTest <;> simp [accept, State.answered, RouteEntry.octets, hd, DataTest.storedMask, DataTest.storedValue]

end Sys2Proof.Machine
end

