-- ==== Sys2Proof/Proofs/Pool.lean ====
section
/-! PROOF. The buffer pool: the admission decision for one copy, and the commands that take records from a queue (04, R61 to
R67). -/

namespace Sys2Proof.Machine

/-! ## Admission into a new buffer (R61) -/

theorem State.one_le_headroom_iff (s : State) : 1 ≤ s.headroom ↔ s.outstanding < s.freeCount := by
  simp only [State.headroom]
  omega

theorem State.admits_iff (s : State) (p : Port) :
    s.admits p = true ↔ (s.rx.get p).queue.length < (s.rx.get p).limit ∧
      ((s.rx.get p).queue.length < (s.rx.get p).reserve ∨ 1 ≤ s.headroom) := by
  simp only [State.admits, State.one_le_headroom_iff, Bool.and_eq_true, Bool.or_eq_true, decide_eq_true_eq]
  rfl

/-! ## The record that is evicted (R62) -/

theorem evictOldest_of_first {older : List RxRecord} {evicted : RxRecord}
    (protect : ∀ y ∈ older, y.wakeMark = true) (unmarked : evicted.wakeMark = false) (newer : List RxRecord) :
    evictOldest (older ++ evicted :: newer) = some (older ++ newer) := by
  induction older with
  | nil => simp [evictOldest, unmarked]
  | cons y older ih =>
    obtain ⟨marked, protect⟩ := List.forall_mem_cons.1 protect
    simp [evictOldest, marked, ih protect]

theorem evictOldest_eq_none {queue : List RxRecord} (protect : ∀ y ∈ queue, y.wakeMark = true) :
    evictOldest queue = none := by
  induction queue with
  | nil => rfl
  | cons y queue ih =>
    obtain ⟨marked, protect⟩ := List.forall_mem_cons.1 protect
    simp [evictOldest, marked, ih protect]

/-- What an eviction removes is the first record without the WAKE mark. -/
theorem evictOldest_eq_some {queue rest : List RxRecord} (h : evictOldest queue = some rest) :
    ∃ older evicted newer, queue = older ++ evicted :: newer ∧ (∀ y ∈ older, y.wakeMark = true) ∧
      evicted.wakeMark = false ∧ rest = older ++ newer := by
  induction queue generalizing rest with
  | nil => simp [evictOldest] at h
  | cons y queue ih =>
    cases marked : y.wakeMark with
    | false =>
      obtain rfl : queue = rest := by simpa [evictOldest, marked] using h
      exact ⟨[], y, queue, rfl, by simp, marked, rfl⟩
    | true =>
      obtain ⟨shorter, found, rfl⟩ : ∃ shorter, evictOldest queue = some shorter ∧ y :: shorter = rest := by
        simpa [evictOldest, marked] using h
      obtain ⟨older, evicted, newer, rfl, protect, unmarked, rfl⟩ := ih found
      exact ⟨y :: older, evicted, newer, rfl, List.forall_mem_cons.2 ⟨marked, protect⟩, unmarked, rfl⟩

theorem mem_of_evictOldest {queue rest : List RxRecord} (h : evictOldest queue = some rest) {x : RxRecord}
    (mem : x ∈ queue) (marked : x.wakeMark = true) : x ∈ rest := by
  obtain ⟨older, evicted, newer, rfl, -, unmarked, rfl⟩ := evictOldest_eq_some h
  have other : x ≠ evicted := by
    rintro rfl
    simp [unmarked] at marked
  simpa [other] using mem

theorem State.displaced_eq_evictOldest {s : State} {p : Port} (policy : (s.rx.get p).policy = .dropOldest)
    (held : 0 < (s.rx.get p).queue.length) (inside : (s.rx.get p).queue.length ≤ (s.rx.get p).limit) :
    s.displaced p = evictOldest (s.rx.get p).queue := if_pos ⟨policy, held, inside⟩

theorem State.evictOldest_of_displaced {s : State} {p : Port} {rest : List RxRecord}
    (h : s.displaced p = some rest) : evictOldest (s.rx.get p).queue = some rest :=
  (Option.ite_none_right_eq_some.1 h).2

/-- The cases in which a copy that has no new buffer displaces nothing (R62). -/
theorem State.displaced_eq_none {s : State} {p : Port}
    (h : (s.rx.get p).policy = .dropNewest ∨ (s.rx.get p).queue.length = 0 ∨
      (s.rx.get p).limit < (s.rx.get p).queue.length ∨ ∀ y ∈ (s.rx.get p).queue, y.wakeMark = true) :
    s.displaced p = none := by
  refine Option.eq_none_iff_forall_ne_some.2 fun rest displaced => ?_
  obtain ⟨⟨policy, held, inside⟩, found⟩ := Option.ite_none_right_eq_some.1 displaced
  rcases h with newest | empty | above | protect
  · simp [policy] at newest
  · omega
  · omega
  · simp [evictOldest_eq_none protect] at found

/-! ## The admission decision, case by case (R61 to R63, R65) -/

theorem admitCopy_newBuffer {p : Port} {s : State} (room : s.admits p = true) (r : RxRecord) :
    admitCopy p r s =
      if (s.rx.get p).queue = [] then (s.setRx p { s.rx.get p with queue := [r] }).raise p .rxReady
      else s.setRx p { s.rx.get p with queue := (s.rx.get p).queue ++ [r] } := by
  simp only [admitCopy, room, if_true, List.isEmpty_iff]
  split
  · next empty => rw [empty, List.nil_append]
  · rfl

theorem admitCopy_evicts {p : Port} {s : State} (full : ¬s.admits p = true) {rest : List RxRecord}
    (displaced : s.displaced p = some rest) (r : RxRecord) :
    admitCopy p r s = (s.setRx p { s.rx.get p with queue := rest ++ [r] }).raise p .rxDrop := by
  simp only [admitCopy, if_neg full, displaced]

theorem admitCopy_drops {p : Port} {s : State} (full : ¬s.admits p = true) (displaced : s.displaced p = none)
    (r : RxRecord) : admitCopy p r s = s.raise p .rxDrop := by
  simp only [admitCopy, if_neg full, displaced]

/-! ## The queues after an admission -/

/-- What an admission makes of the queues: the copy at the tail, the copy at the tail and one record evicted, or no
change. -/
theorem admitCopy_rx_cases (p : Port) (r : RxRecord) (s : State) :
    (s.admits p = true ∧
      (admitCopy p r s).rx = s.rx.set p { s.rx.get p with queue := (s.rx.get p).queue ++ [r] }) ∨
    (∃ rest, ¬s.admits p = true ∧ s.displaced p = some rest ∧
      (admitCopy p r s).rx = s.rx.set p { s.rx.get p with queue := rest ++ [r] }) ∨
    (¬s.admits p = true ∧ s.displaced p = none ∧ (admitCopy p r s).rx = s.rx) := by
  by_cases room : s.admits p = true
  · refine .inl ⟨room, ?_⟩
    rw [admitCopy_newBuffer room]
    split
    · next empty => simp [empty]
    · rfl
  · cases displaced : s.displaced p with
    | some rest => exact .inr (.inl ⟨rest, room, rfl, by rw [admitCopy_evicts room displaced]; rfl⟩)
    | none => exact .inr (.inr ⟨room, rfl, by rw [admitCopy_drops room displaced]; rfl⟩)

theorem admitCopy_rx_ne {p q : Port} (h : q ≠ p) (r : RxRecord) (s : State) :
    (admitCopy p r s).rx.get q = s.rx.get q := by
  obtain ⟨-, rx⟩ | ⟨rest, -, -, rx⟩ | ⟨-, -, rx⟩ := admitCopy_rx_cases p r s <;> simp [rx, h]

/-- A WAKE-marked record is never evicted (R62). -/
theorem mem_admitCopy_of_wakeMark {p : Port} {x : RxRecord} {s : State} (mem : x ∈ (s.rx.get p).queue)
    (marked : x.wakeMark = true) (r : RxRecord) : x ∈ ((admitCopy p r s).rx.get p).queue := by
  obtain ⟨-, rx⟩ | ⟨rest, -, displaced, rx⟩ | ⟨-, -, rx⟩ := admitCopy_rx_cases p r s
  · simp [rx, mem]
  · have kept : x ∈ rest := mem_of_evictOldest (State.evictOldest_of_displaced displaced) mem marked
    simp [rx, kept]
  · rwa [rx]

/-- Settles O29: the four cases are those of `admitCopy`, the third by the record that `evictOldest` finds; no case takes a
WAKE-marked record away. -/
theorem admissionDecides : Obligations.AdmissionDecides := by
  refine ⟨fun p r s => ?decides, fun p q r x s mem marked => ?kept⟩
  case kept =>
    by_cases h : q = p
    · subst h; exact mem_admitCopy_of_wakeMark mem marked r
    · rwa [admitCopy_rx_ne h]
  simp only [← State.admits_iff, List.length_eq_zero_iff, ne_eq]
  refine ⟨fun room empty => ?intoEmpty, fun room filled => ?atTail,
    fun full policy inside older evicted newer queue protect unmarked => ?evicts, fun full lost => ?drops⟩
  case intoEmpty => rw [admitCopy_newBuffer room, if_pos empty]
  case atTail => rw [admitCopy_newBuffer room, if_neg filled]
  case evicts =>
    have held : 0 < (s.rx.get p).queue.length := by simp [queue]
    refine admitCopy_evicts full ?_ r
    rw [State.displaced_eq_evictOldest policy held inside, queue, evictOldest_of_first protect unmarked]
  case drops => exact admitCopy_drops full (State.displaced_eq_none (by rwa [List.length_eq_zero_iff])) r

/-! ## The blocks of FETCH and FLUSH_RX (R66, R67) -/

theorem fetchBody_empty {p : Port} {s : State} (empty : (s.rx.get p).queue = []) (ps : List Byte) :
    fetchBody p ps s = refuse s .queueEmpty := by
  simp only [fetchBody, empty]

theorem fetchBody_head {p : Port} {s : State} {r : RxRecord} {more : List RxRecord}
    (head : (s.rx.get p).queue = r :: more) (ps : List Byte) :
    fetchBody p ps s = accept (s.setRx p { s.rx.get p with queue := more }) (oct more.length :: r.octets) := by
  simp only [fetchBody, head]

/-! ## The commands of an ACTIVE port -/

theorem exec_fetch_of_active {p : Port} {s : State} (hs : s.Active p) (filler : List Byte) :
    exec (.fetch p (clockedIn [] filler)) s =
      let r := fetchBody p [] (s.found p (clockedIn [] filler))
      .next (r.1.setHolder p r.2) :=
  congrArg Host.Outcome.next (portCommand_activeIn hs (by simp) rfl rfl)

theorem exec_flushRx_of_active {p : Port} {s : State} (hs : s.Active p) (filler : List Byte) :
    exec (.flushRx p (clockedIn [] filler)) s =
      let r := flushRxBody p [] (s.found p (clockedIn [] filler))
      .next (r.1.setHolder p r.2) :=
  congrArg Host.Outcome.next (portCommand_activeIn hs (by simp) rfl rfl)

/-- Settles O27: each outcome is the block's on the state the command finds, which has the queues of `s`. -/
theorem fetchAndFlush : Obligations.FetchAndFlush := by
  intro p filler s hs
  simp only [exec_fetch_of_active hs, exec_flushRx_of_active hs]
  refine ⟨fun empty => ?_, fun r more head => ?_, rfl⟩
  · rw [fetchBody_empty (by simpa using empty)]; rfl
  · rw [fetchBody_head (r := r) (more := more) (by simpa using head)]
    simp [accept, RxRecord.octets]

end Sys2Proof.Machine
end

