-- ==== Sys2Proof/Proofs/StandIns.lean ====
section
/-! PROOF. The stand-in commands: their checks in order, and what each makes of a slot's stand-in (07, R121 to R124). -/

namespace Sys2Proof.Machine

/-! ## The parameters on the wire -/

/-- The parameters of STANDIN_ATTACH: slot number, local label, length, payload. -/
def attachParameters (n : Byte) (w : Word16) (payload : List Byte) : List Byte :=
  [n] ++ octets2 w ++ [oct payload.length] ++ payload

/-- The parameters of STANDIN_REFRESH: slot number, length, payload. -/
def refreshParameters (n : Byte) (payload : List Byte) : List Byte := [n, oct payload.length] ++ payload

section parameters
variable (n : Byte) (w : Word16) (payload : List Byte)

@[simp] theorem octetAt_attachParameters : octetAt (attachParameters n w payload) 0 = n := rfl

@[simp] theorem wordAt_attachParameters : wordAt (attachParameters n w payload) 1 = w := high_append_low w

@[simp] theorem drop_attachParameters : (attachParameters n w payload).drop 4 = payload := rfl

@[simp] theorem length_attachParameters : (attachParameters n w payload).length = payload.length + 4 := rfl

theorem accepts_attachParameters (h : payload.length < 256) :
    Command.standinAttach.frame.accepts (attachParameters n w payload) = true := by
  have length_octet : octetAt (attachParameters n w payload) 3 = oct payload.length := rfl
  simp [Command.frame, FrameLen.accepts, length_octet, toNat_oct h, Nat.add_comm]

@[simp] theorem octetAt_refreshParameters : octetAt (refreshParameters n payload) 0 = n := rfl

@[simp] theorem drop_refreshParameters : (refreshParameters n payload).drop 2 = payload := rfl

@[simp] theorem length_refreshParameters : (refreshParameters n payload).length = payload.length + 2 := rfl

theorem accepts_refreshParameters (h : payload.length < 256) :
    Command.standinRefresh.frame.accepts (refreshParameters n payload) = true := by
  have length_octet : octetAt (refreshParameters n payload) 1 = oct payload.length := rfl
  simp [Command.frame, FrameLen.accepts, length_octet, toNat_oct h, Nat.add_comm]

end parameters

/-! ## The range check (R121 step 1, R123 step 1) -/

theorem not_outOfRange {n : Byte} {payload : List Byte} (inside : n.toNat ≤ 23) (short : payload.length ≤ 16) :
    ¬(Config.slotCount ≤ n.toNat ∨ Config.maxPayload < payload.length) := by
  simp only [Config.slotCount, Config.maxPayload]
  omega

theorem standinAttachBody_outOfRange {n : Byte} {w : Word16} {payload : List Byte}
    (h : 23 < n.toNat ∨ 16383 < w.toNat ∨ 16 < payload.length) (p : Port) (s : State) :
    standinAttachBody p (attachParameters n w payload) s = refuse s .outOfRange := by
  simp only [standinAttachBody, octetAt_attachParameters, wordAt_attachParameters, drop_attachParameters]
  cases hl : labelOf w with
  | none => rfl
  | some l =>
    refine if_pos ?_
    rcases h with above | label | long
    · exact .inl above
    · simp [labelOf_above label] at hl
    · exact .inr long

theorem standinRefreshBody_outOfRange {n : Byte} {payload : List Byte} (h : 23 < n.toNat ∨ 16 < payload.length)
    (p : Port) (s : State) : standinRefreshBody p (refreshParameters n payload) s = refuse s .outOfRange := if_pos h

theorem standinDetachBody_outOfRange {n : Byte} (h : 23 < n.toNat) (p : Port) (s : State) :
    standinDetachBody p [n] s = refuse s .outOfRange := if_pos h

/-! ## STANDIN_ATTACH inside the range (R121 steps 2 to 6, R122) -/

section attach
variable {p : Port} {n : Byte} {l line : Label} {payload : List Byte} {s : State} {sl : Slot} {c : ResultCode}
variable (inside : n.toNat ≤ 23) (short : payload.length ≤ 16)
include inside short

theorem standinAttachBody_free (free : s.slot n.toNat = none) :
    standinAttachBody p (attachParameters n (l.setWidth 16) payload) s = refuse s .badIndex := by
  simp [standinAttachBody, not_outOfRange inside short, free]

variable (live : s.slot n.toNat = some sl)
include live

theorem standinAttachBody_own (own : sl.owner = p) :
    standinAttachBody p (attachParameters n (l.setWidth 16) payload) s = refuse s .wrongState := by
  simp [standinAttachBody, not_outOfRange inside short, live, own]

variable (foreign : sl.owner ≠ p)
include foreign

theorem standinAttachBody_covered (covered : sl.standIn ≠ none) :
    standinAttachBody p (attachParameters n (l.setWidth 16) payload) s = refuse s .standinTaken := by
  simp [standinAttachBody, not_outOfRange inside short, live, foreign, Option.isSome_iff_ne_none, covered]

variable (uncovered : sl.standIn = none)
include uncovered

theorem standinAttachBody_untranslated (fails : translate (s.windows.get p) .slot l = .fails c) :
    standinAttachBody p (attachParameters n (l.setWidth 16) payload) s = refuse s c := by
  simp [standinAttachBody, not_outOfRange inside short, live, foreign, uncovered, fails]

theorem standinAttachBody_otherLabel (label : translate (s.windows.get p) .slot l = .label line)
    (other : line ≠ sl.lineLabel) :
    standinAttachBody p (attachParameters n (l.setWidth 16) payload) s = refuse s .notPermitted := by
  simp [standinAttachBody, not_outOfRange inside short, live, foreign, uncovered, label, other]

theorem standinAttachBody_taken (label : translate (s.windows.get p) .slot l = .label sl.lineLabel) :
    standinAttachBody p (attachParameters n (l.setWidth 16) payload) s =
      accept (s.setSlot n.toNat (some { sl with standIn := some ⟨p, payload, 0⟩ })) (n :: label2 sl.lineLabel) := by
  simp [standinAttachBody, not_outOfRange inside short, live, foreign, uncovered, label]

end attach

/-! ## The stand-in that STANDIN_REFRESH and STANDIN_DETACH name (R123 steps 2 to 4) -/

section named
variable {p : Port} {n : Nat} {s : State} {sl : Slot} {si : StandIn} (k : Slot → StandIn → Reply)

theorem ownStandIn_free (free : s.slot n = none) : ownStandIn p n s k = refuse s .badIndex := by
  simp only [ownStandIn, free]

theorem ownStandIn_uncovered (live : s.slot n = some sl) (uncovered : sl.standIn = none) :
    ownStandIn p n s k = refuse s .wrongState := by
  simp only [ownStandIn, live, uncovered]

theorem ownStandIn_foreign (live : s.slot n = some sl) (covered : sl.standIn = some si) (foreign : si.port ≠ p) :
    ownStandIn p n s k = refuse s .notOwner := by
  simp only [ownStandIn, live, covered, if_neg foreign]

theorem ownStandIn_own (live : s.slot n = some sl) (covered : sl.standIn = some si) (own : si.port = p) :
    ownStandIn p n s k = k sl si := by
  simp only [ownStandIn, live, covered, if_pos own]

end named

theorem standinRefreshBody_inRange {n : Byte} {payload : List Byte} (inside : n.toNat ≤ 23)
    (short : payload.length ≤ 16) (p : Port) (s : State) :
    standinRefreshBody p (refreshParameters n payload) s =
      ownStandIn p n.toNat s fun sl si =>
        accept (s.setSlot n.toNat (some { sl with standIn := some { si with payload := payload } })) [] :=
  if_neg (not_outOfRange inside short)

theorem standinDetachBody_inRange {n : Byte} (inside : n.toNat ≤ 23) (p : Port) (s : State) :
    standinDetachBody p [n] s =
      ownStandIn p n.toNat s fun sl _ =>
        accept ((s.setSlot n.toNat (some { sl with standIn := none })).raise sl.owner .standinGone) [] :=
  if_neg (Nat.not_le.2 (Nat.lt_succ_of_le inside))

/-! ## The commands of an ACTIVE port -/

section commands
variable {p : Port} {s : State} {n : Byte} {payload filler : List Byte} {r : Reply}

theorem exec_standinAttach_of_active {w : Word16} (hs : s.Active p) (h : payload.length ≤ 251)
    (reply : standinAttachBody p (attachParameters n w payload)
      (s.found p (clockedIn (attachParameters n w payload) filler)) = r) :
    exec (.standinAttach p (clockedIn (attachParameters n w payload) filler)) s = .next (r.1.setHolder p r.2) := by
  subst reply
  exact congrArg Host.Outcome.next (portCommand_activeIn hs (by simp only [length_attachParameters]; omega)
    (accepts_attachParameters n w payload (by omega)) rfl)

theorem exec_standinRefresh_of_active (hs : s.Active p) (h : payload.length ≤ 251)
    (reply : standinRefreshBody p (refreshParameters n payload)
      (s.found p (clockedIn (refreshParameters n payload) filler)) = r) :
    exec (.standinRefresh p (clockedIn (refreshParameters n payload) filler)) s = .next (r.1.setHolder p r.2) := by
  subst reply
  exact congrArg Host.Outcome.next (portCommand_activeIn hs (by simp only [length_refreshParameters]; omega)
    (accepts_refreshParameters n payload (by omega)) rfl)

theorem exec_standinDetach_of_active (hs : s.Active p)
    (reply : standinDetachBody p [n] (s.found p (clockedIn [n] filler)) = r) :
    exec (.standinDetach p (clockedIn [n] filler)) s = .next (r.1.setHolder p r.2) := by
  subst reply
  exact congrArg Host.Outcome.next (portCommand_activeIn hs (by simp) rfl rfl)

end commands

/-- Settles O42: each outcome is the block's on the state the command finds, which has the slots and the windows of `s`;
STANDIN_REFRESH and STANDIN_DETACH share the checks of `ownStandIn`. -/
theorem standInCommands : Obligations.StandInCommands := by
  refine ⟨fun p n w payload filler s hs short => ⟨fun out => ?_, fun out => ?_, fun above => ?_⟩,
    fun p n filler s hs inside => ⟨fun l payload short => ?attach, fun payload short => ?refresh, ?detach⟩⟩
  · exact exec_standinAttach_of_active (filler := filler) hs short (standinAttachBody_outOfRange out p _)
  · exact exec_standinRefresh_of_active (filler := filler) hs short (standinRefreshBody_outOfRange out p _)
  · exact exec_standinDetach_of_active (filler := filler) hs (standinDetachBody_outOfRange above p _)
  case attach =>
    have answers {r : Reply} := exec_standinAttach_of_active (n := n) (w := l.setWidth 16) (filler := filler) (r := r)
      hs (short.trans (by decide : 16 ≤ 251))
    exact ⟨fun free => answers (standinAttachBody_free inside short free), fun sl live =>
      ⟨fun own => answers (standinAttachBody_own inside short live own),
        fun foreign covered => answers (standinAttachBody_covered inside short live foreign covered),
        fun c foreign uncovered fails =>
          answers (standinAttachBody_untranslated inside short live foreign uncovered fails),
        fun line foreign uncovered label other =>
          answers (standinAttachBody_otherLabel inside short live foreign uncovered label other),
        fun foreign uncovered label => answers (standinAttachBody_taken inside short live foreign uncovered label)⟩⟩
  case refresh =>
    have answers {r : Reply} := fun named => exec_standinRefresh_of_active (n := n) (filler := filler) (r := r) hs
      (short.trans (by decide : 16 ≤ 251)) ((standinRefreshBody_inRange inside short p _).trans named)
    exact ⟨fun free => answers (ownStandIn_free _ free),
      fun sl live uncovered => answers (ownStandIn_uncovered _ live uncovered), fun sl si live covered =>
        ⟨fun foreign => answers (ownStandIn_foreign _ live covered foreign),
          fun own => answers (ownStandIn_own _ live covered own)⟩⟩
  case detach =>
    rintro _ rfl
    have answers {r : Reply} := fun named => exec_standinDetach_of_active (n := n) (filler := filler) (r := r) hs
      ((standinDetachBody_inRange inside p _).trans named)
    exact ⟨fun free => answers (ownStandIn_free _ free),
      fun sl live uncovered => answers (ownStandIn_uncovered _ live uncovered), fun sl si live covered =>
        ⟨fun foreign => answers (ownStandIn_foreign _ live covered foreign),
          fun own => answers (ownStandIn_own _ live covered own)⟩⟩

end Sys2Proof.Machine
end

/-! PROOF. READ_STATUS and READ_ID: commands that answer a record in every port state and change nothing else (09, R166;
11, R181). -/

namespace Sys2Proof.Machine

/-! ## Commands that only answer -/

/-- A command whose block leaves the state it finds leaves nothing but its answer. -/
theorem portCommand_answered {c : Command} {p : Port} {ps filler : List Byte} {body : List Byte → State → Reply}
    {s : State} {r : Response} (hs : s.Ready p) (hlen : ps.length < 256) (hok : c.frame.accepts ps = true)
    (hst : stateCheck c (s.unit p).state = none)
    (reply : body ps (s.found p (clockedIn ps filler)) = (s.found p (clockedIn ps filler), r)) :
    portCommand c p (clockedIn ps filler) body s = s.answered p (clockedIn ps filler) r := by
  rw [portCommand_takenIn hs hlen hok hst, reply, State.answered]

/-- READ_STATUS stands in the list of every port state (R153). -/
theorem stateCheck_readStatus (st : PortState) : stateCheck .readStatus st = none := by
  cases st <;> rfl

/-- READ_ID stands in the list of every port state (R153). -/
theorem stateCheck_readId (st : PortState) : stateCheck .readId st = none := by
  cases st <;> rfl

/-! ## The records (12, Table 12-2) -/

/-- What the transaction does before the block, to the holder and the presence timer, does not show in the record. -/
@[simp] theorem State.found_statusOctets (s : State) (p q : Port) (rest : List Byte) :
    (s.found p rest).statusOctets q = s.statusOctets q := by
  simp [State.statusOctets]

theorem State.statusOctets_eq (s : State) (p : Port) :
    s.statusOctets p =
      [(s.unit p).state.code, (s.unit p).detachCause.code, (s.unit p).flags.extractLsb' 8 8,
        (s.unit p).flags.extractLsb' 0 8, (s.unit p).mask.extractLsb' 8 8, (s.unit p).mask.extractLsb' 0 8,
        oct (s.rx.get p).queue.length, oct (s.tx.get p).entries.length] ++
      count2 (s.unit p).presenceInterval ++ [(s.unit p).wakeSet.octet] ++ wakeRecordOctets (s.unit p).wakeRecord ++
      [portOptCode s.line.lease, s.line.state.code, flagOctet s.quiet.latch, flagOctet s.loader.loadFault] := rfl

/-- The part code 4120 is 1018h. -/
theorem count2_partCode : count2 4120 = [0x10, 0x18] := by decide

theorem readStatusBody_found (s : State) (p : Port) (rest ps : List Byte) :
    readStatusBody p ps (s.found p rest) = (s.found p rest, ⟨.ok, s.statusOctets p⟩) := by
  rw [readStatusBody, accept, State.found_statusOctets]

theorem readIdBody_found (s : State) (p : Port) (rest ps : List Byte) :
    readIdBody ps (s.found p rest) =
      (s.found p rest, ⟨.ok, [0x6C, 0x10, 0x18, 0x01, flagOctet s.loader.loadFault]⟩) := by
  rw [readIdBody, accept, count2_partCode, State.found_loader]
  rfl

/-! ## The commands -/

theorem exec_readStatus_of_ready {p : Port} {s : State} (hs : s.Ready p) (filler : List Byte) :
    exec (.readStatus p (clockedIn [] filler)) s =
      .next (s.answered p (clockedIn [] filler) ⟨.ok, s.statusOctets p⟩) :=
  congrArg Host.Outcome.next
    (portCommand_answered hs (by simp) rfl (stateCheck_readStatus _) (readStatusBody_found s p _ _))

theorem exec_readId_of_ready {p : Port} {s : State} (hs : s.Ready p) (filler : List Byte) :
    exec (.readId p (clockedIn [] filler)) s =
      .next (s.answered p (clockedIn [] filler) ⟨.ok, [0x6C, 0x10, 0x18, 0x01, flagOctet s.loader.loadFault]⟩) :=
  congrArg Host.Outcome.next
    (portCommand_answered hs (by simp) rfl (stateCheck_readId _) (readIdBody_found s p _ _))

/-- Settles O19: both commands pass the state check in every port state, and their blocks answer the record of the state
before the command. -/
theorem statusReads : Obligations.StatusReads := by
  intro p filler s hs
  refine ⟨?status, exec_readId_of_ready hs filler⟩
  case status => rw [exec_readStatus_of_ready hs, State.statusOctets_eq]

end Sys2Proof.Machine

/-! PROOF. What the block of a command can do to the state it finds: one inversion lemma over the 44 commands (Table 12-1).
Every claim about all commands is derived from it. -/

namespace Sys2Proof.Machine

/-- The states that the block of a command of port `p` can leave, each under the checks it has passed. -/
inductive Block (p : Port) (s : State) : State → Prop
  | answers : Block p s s
  | attach (detached : (s.unit p).state = .detached) : Block p s (s.modUnit p PortUnit.attached)
  | detach : Block p s (teardown p .requested s)
  | resetDetached (detached : (s.unit p).state = .detached) :
      Block p s (restoreDefaults p (s.modUnit p (fun u => { u with detachCause := .reset })))
  | resetAttached : Block p s (restoreDefaults p (teardown p .reset s))
  | setPresence (n : Nat) (active : (s.unit p).state = .active) :
      Block p s (s.modUnit p (fun u => ({ u with presenceInterval := n }).startPresence))
  | doze (w : WakeSet) (period : Nat) : Block p s (takeDoze p w period s)
  | resume : Block p s (s.modUnit p PortUnit.resumed)
  | takeEvents : Block p s (s.modUnit p (fun u => { u with flags := 0 }))
  | setEventMask (m : Word16) : Block p s (s.modUnit p (fun u => { u with mask := m }))
  | leaseTake (active : (s.unit p).state = .active) (free : s.line.lease = none) :
      Block p s (s.modLine (fun u => { u with lease := some p }))
  | leaseRelease : Block p s (releaseLease p s)
  | setWindow (n : Nat) (w : Window) (inMask : w.inMask = true) :
      Block p s { s with windows := s.windows.set p ((s.windows.get p).set n w) }
  | routeAdd (n : Nat) (e : RouteEntry) (active : (s.unit p).state = .active) (own : e.owner = p) (sound : e.Sound)
      (share : s.routeCount p < Config.routesPerPort) (free : s.routes[n]? = some none) :
      Block p s { s with routes := s.routes.set n (some e) }
  | routeRemove (n : Nat) : Block p s { s with routes := s.routes.set n none }
  | fetch (r : RxRecord) (rest : List RxRecord) (head : (s.rx.get p).queue = r :: rest) :
      Block p s (s.setRx p { s.rx.get p with queue := rest })
  | flushRx : Block p s (s.setRx p { s.rx.get p with queue := [] })
  | setReserve (q : Port) (reserve limit : Nat) (policy : Policy) (inRange : poolSettingsOk reserve limit)
      (covered : (s.setRx q ⟨(s.rx.get q).queue, reserve, limit, policy⟩).outstanding ≤
        (s.setRx q ⟨(s.rx.get q).queue, reserve, limit, policy⟩).freeCount) :
      Block p s (s.setRx q ⟨(s.rx.get q).queue, reserve, limit, policy⟩)
  | send (e : TxEntry) (active : (s.unit p).state = .active) (sound : e.Sound)
      (room : (s.tx.get p).entries.length < Config.txDepth) : Block p s (appendTx p [e] s)
  | sendWake (active : (s.unit p).state = .active) (room : (s.tx.get p).entries.length ≤ 6) :
      Block p s (appendTx p [wakeEntry s.stamp, wakeEntry s.stamp] s)
  | txFlushBehind : Block p s (s.setTx p { s.tx.get p with entries := (s.tx.get p).entries.take 1 })
  | txFlush : Block p s (s.setTx p ⟨[], none⟩)
  | slotCreate (n : Nat) (line l : Label) (period offset : Nat) (payload : List Byte)
      (active : (s.unit p).state = .active) (nonzero : line ≠ 0) (positive : 1 ≤ period)
      (bounded : period ≤ Config.maxPeriod) (inside : offset < period) (fresh : s.slotOfLabel line = none)
      (free : s.slots[n]? = some none) :
      Block p s (s.setSlot n (some (Slot.created p line l period offset payload)))
  | slotConfigure (n : Nat) (sl : Slot) (c : SlotSettings) (live : s.slot n = some sl) (stopped : sl.state = .stopped)
      (low : 1 ≤ c.takeoverAfter) (high : c.takeoverAfter ≤ 7) (fit : c.fit sl = true) :
      Block p s (s.setSlot n (some (sl.configured c)))
  | slotStart (n : Nat) (sl : Slot) (live : s.slot n = some sl) (stopped : sl.state = .stopped) :
      Block p s (s.setSlot n (some (sl.started s.quiet.latch)))
  | slotGoOn (n : Nat) (sl : Slot) (live : s.slot n = some sl) (finishing : sl.state = .finishing) :
      Block p s (s.setSlot n (some { sl with state := .running }))
  | slotFinish (n : Nat) (sl : Slot) (live : s.slot n = some sl) (running : sl.state = .running) :
      Block p s (s.setSlot n (some { sl with state := .finishing }))
  | slotFinishHeld (n : Nat) (sl : Slot) (live : s.slot n = some sl) (held : sl.state = .halted .running) :
      Block p s (s.setSlot n (some { sl with state := .halted .finishing }))
  | slotStop (n : Nat) : Block p s (stopNow n s)
  | slotRefresh (n : Nat) (sl : Slot) (payload : List Byte) (live : s.slot n = some sl) :
      Block p s (s.setSlot n (some (sl.refreshed payload)))
  | slotSetPeriod (n : Nat) (sl : Slot) (period : Nat) (live : s.slot n = some sl) (inside : sl.offset < period)
      (bounded : period ≤ Config.maxPeriod) : Block p s (s.setSlot n (some (sl.withPeriod period)))
  | slotRemove (n : Nat) : Block p s (removeSlot n s)
  | slotRead : Block p s s.drawn
  | standinAttach (n : Nat) (sl : Slot) (payload : List Byte) (active : (s.unit p).state = .active)
      (live : s.slot n = some sl) (foreign : sl.owner ≠ p) :
      Block p s (s.setSlot n (some { sl with standIn := some ⟨p, payload, 0⟩ }))
  | standinRefresh (n : Nat) (sl : Slot) (si : StandIn) (payload : List Byte) (live : s.slot n = some sl)
      (covered : sl.standIn = some si) :
      Block p s (s.setSlot n (some { sl with standIn := some { si with payload := payload } }))
  | standinDetach (n : Nat) (sl : Slot) (live : s.slot n = some sl) :
      Block p s ((s.setSlot n (some { sl with standIn := none })).raise sl.owner .standinGone)
  | lineSet (c : LineSettings) : Block p s (s.modLine (fun u => u.set c))
  | lineOn (off : s.line.state = .off) : Block p s (startLine s)
  | lineOff : Block p s (turnLineOff s)
  | lineResync (on : s.line.state ≠ .off) : Block p s (startLine (abortAttempt s))
  | quietConfig (sel : QuietSelection) : Block p s { s with quiet := { s.quiet with selection := sel } }
  | quietClear (latched : s.quiet.latch = true) :
      Block p s (releaseSlots { s with quiet := { s.quiet with latch := false } })

/-! ## The blocks of the port units -/

theorem portResetBody_block (p : Port) (ps : List Byte) (s : State) : Block p s (portResetBody p ps s).1 := by
  simp only [portResetBody, accept]
  split
  · next detached => exact .resetDetached detached
  · exact .resetAttached

theorem setPresenceBody_block {p : Port} {s : State} (active : (s.unit p).state = .active) (ps : List Byte) :
    Block p s (setPresenceBody p ps s).1 := by
  simp only [setPresenceBody]
  split
  · exact .setPresence _ active
  · exact .answers

theorem dozeBody_block (p : Port) (ps : List Byte) (s : State) : Block p s (dozeBody p ps s).1 := by
  simp only [dozeBody]
  split
  · exact .answers
  · split
    · exact .answers
    · exact .doze _ _

theorem leaseTakeBody_block {p : Port} {s : State} (active : (s.unit p).state = .active) (ps : List Byte) :
    Block p s (leaseTakeBody p ps s).1 := by
  simp only [leaseTakeBody]
  split
  · next free => exact .leaseTake active free
  · split <;> exact .answers

theorem leaseReleaseBody_block (p : Port) (ps : List Byte) (s : State) : Block p s (leaseReleaseBody p ps s).1 := by
  simp only [leaseReleaseBody]
  split
  · exact .leaseRelease
  · exact .answers

/-! ## The blocks of the windows and the route table -/

theorem setWindowBody_block (p : Port) (ps : List Byte) (s : State) : Block p s (setWindowBody p ps s).1 := by
  simp only [setWindowBody]
  split
  · exact .answers
  · split
    · exact .answers
    · split
      · exact .answers
      · next inMask => exact .setWindow _ _ (by simpa using inMask)

theorem readWindowBody_block (p : Port) (ps : List Byte) (s : State) : Block p s (readWindowBody p ps s).1 := by
  simp only [readWindowBody]
  split <;> exact .answers

/-- A value whose octets have been masked is its own masked value. -/
theorem maskOctets_maskOctets (value mask : List Byte) :
    maskOctets (maskOctets value mask) mask = maskOctets value mask := by
  induction value generalizing mask with
  | nil => rfl
  | cons v value ih =>
    cases mask with
    | nil => rfl
    | cons m mask =>
      have head : v &&& m &&& m = v &&& m := by rw [BitVec.and_assoc, BitVec.and_self]
      simpa [maskOctets, head] using ih mask

/-- What a length test code gives is at most the longest payload. -/
theorem LengthTest.ofCode_bounded {b : Byte} {n : Nat} (h : LengthTest.ofCode b = some (.exact n)) :
    n ≤ Config.maxPayload := by
  simp only [LengthTest.ofCode] at h
  split at h
  · simp at h
  · split at h
    · next bound => simp only [Option.some.injEq, LengthTest.exact.injEq] at h; omega
    · simp at h

/-- An EQUAL test is stored with its value inside its mask (R50). -/
theorem dataTestOf_masked {code : Byte} {mask value m v : List Byte} (h : dataTestOf code mask value = some (.equal m v)) :
    maskOctets v m = v := by
  simp only [dataTestOf] at h
  split at h <;> simp only [Option.some.injEq, DataTest.equal.injEq, reduceCtorEq] at h
  obtain ⟨rfl, rfl⟩ := h
  exact maskOctets_maskOctets value mask

/-- The entry that ROUTE_ADD reads is sound but for its pattern, which the next check tests (R49, R50). -/
theorem routeEntryOf_sound {p : Port} {ps : List Byte} {e : RouteEntry} (h : routeEntryOf p ps = some e)
    (pattern : e.patternOk = true) : e.owner = p ∧ e.Sound := by
  simp only [routeEntryOf] at h
  split at h
  case h_2 => simp at h
  next len test _ _ _ _ _ hlen htest _ _ =>
  split at h
  case isFalse => simp at h
  next bounds =>
  obtain rfl := Option.some.inj h
  refine ⟨rfl, pattern, bounds.1, fun wake => by simp_all, ?length, ?data⟩
  case length =>
    cases len with
    | any => trivial
    | exact n => exact LengthTest.ofCode_bounded hlen
  case data =>
    cases test with
    | equal m v => exact dataTestOf_masked htest
    | none => trivial
    | anySet m => trivial

/-- The number that the search for a free entry gives is that of a free entry. -/
theorem getElem?_of_findIdx?_isNone {α : Type} {xs : List (Option α)} {n : Nat}
    (h : xs.findIdx? Option.isNone = some n) : xs[n]? = some none := by
  obtain ⟨inside, free, -⟩ := List.findIdx?_eq_some_iff_getElem.1 h
  rw [List.getElem?_eq_getElem inside, Option.isNone_iff_eq_none.1 free]

theorem findIdx?_isNone_of_full {α : Type} {xs : List (Option α)} (full : ∀ x ∈ xs, x ≠ none) :
    xs.findIdx? Option.isNone = none :=
  List.findIdx?_eq_none_iff.2 fun x mem => by simpa [Option.isSome_iff_ne_none] using full x mem

/-- The search gives the lowest-numbered free entry. -/
theorem findIdx?_isNone_of_lowest {α : Type} {xs : List (Option α)} {n : Nat} (free : xs[n]? = some none)
    (lowest : ∀ m, m < n → (xs.getD m none).isSome = true) : xs.findIdx? Option.isNone = some n := by
  obtain ⟨inside, here⟩ := List.getElem?_eq_some_iff.1 free
  refine List.findIdx?_eq_some_iff_getElem.2 ⟨inside, by rw [here]; rfl, fun m below => ?_⟩
  have live := lowest m below
  rw [List.getD_eq_getElem?_getD, List.getElem?_eq_getElem (by omega)] at live
  cases entry : xs[m] with
  | none => simp [entry] at live
  | some _ => simp

theorem routeAddBody_block {p : Port} {s : State} (active : (s.unit p).state = .active) (ps : List Byte) :
    Block p s (routeAddBody p ps s).1 := by
  simp only [routeAddBody]
  split
  · exact .answers
  · next e read =>
    split
    · exact .answers
    · next pattern =>
      split
      · exact .answers
      · next share =>
        split
        · exact .answers
        · next n found =>
          obtain ⟨own, sound⟩ := routeEntryOf_sound read (by simpa using pattern)
          exact .routeAdd n e active own sound (Nat.lt_of_not_le share) (getElem?_of_findIdx?_isNone found)

theorem routeRemoveBody_block (p : Port) (ps : List Byte) (s : State) : Block p s (routeRemoveBody p ps s).1 := by
  simp only [routeRemoveBody]
  split
  · exact .answers
  · split
    · exact .answers
    · split
      · exact .routeRemove _
      · exact .answers

theorem routeReadBody_block (p : Port) (ps : List Byte) (s : State) : Block p s (routeReadBody ps s).1 := by
  simp only [routeReadBody]
  split
  · exact .answers
  · split <;> exact .answers

/-! ## The blocks of the queues -/

theorem fetchBody_block (p : Port) (ps : List Byte) (s : State) : Block p s (fetchBody p ps s).1 := by
  simp only [fetchBody]
  split
  · exact .answers
  · next r rest head => exact .fetch r rest head

theorem setReserveBody_block (p : Port) (ps : List Byte) (s : State) : Block p s (setReserveBody p ps s).1 := by
  simp only [setReserveBody]
  split
  · exact .answers
  · split
    · split
      · exact .answers
      · next inRange =>
        split
        · exact .answers
        · next covered =>
          exact .setReserve _ _ _ _ (by simp only [poolSettingsOk]; omega) (Nat.le_of_not_lt covered)
    · exact .answers

/-- What a translation gives is never label 0 (R28). -/
theorem translate_ne_zero {ws : List Window} {perm : Permission} {l line : Label}
    (h : translate ws perm l = .label line) : line ≠ 0 := by
  simp only [translate] at h
  split at h
  · simp at h
  · split at h
    · split at h
      · simp at h
      · next nonzero => obtain rfl := Translation.label.inj h; exact nonzero
    · simp at h

theorem sendBody_block {p : Port} {s : State} (active : (s.unit p).state = .active) (ps : List Byte) :
    Block p s (sendBody p ps s).1 := by
  simp only [sendBody]
  split
  · next kind l _ _ =>
    split
    · exact .answers
    · next allowed =>
      obtain ⟨data, short⟩ := not_or.1 allowed
      split
      · exact .answers
      · next line translated =>
        split
        · exact .answers
        · next room =>
          refine .send _ active ⟨Nat.zero_lt_succ _, Nat.le_of_not_lt short, ?_, fun wake => absurd wake data⟩
            (Nat.lt_of_not_le room)
          exact ⟨fun wake => absurd wake data, fun zero => absurd zero (translate_ne_zero translated)⟩
  · exact .answers

theorem sendWakeBody_block {p : Port} {s : State} (active : (s.unit p).state = .active) (ps : List Byte) :
    Block p s (sendWakeBody p ps s).1 := by
  simp only [sendWakeBody]
  split
  · exact .answers
  · next room => exact .sendWake active (Nat.le_of_not_lt room)

theorem txFlushBody_block (p : Port) (ps : List Byte) (s : State) : Block p s (txFlushBody p ps s).1 := by
  simp only [txFlushBody]
  split
  · exact .txFlushBehind
  · exact .txFlush

theorem txStatusBody_block (p : Port) (ps : List Byte) (s : State) : Block p s (txStatusBody p ps s).1 := by
  simp only [txStatusBody]
  split <;> exact .answers

/-! ## The blocks of the slots -/

/-- A command that names a slot of its own port does what its meaning does to that slot, and otherwise nothing (R96). -/
theorem ownedSlot_block {p : Port} {n : Nat} {s : State} {k : Slot → Reply}
    (own : ∀ sl, s.slot n = some sl → Block p s (k sl).1) : Block p s (ownedSlot p n s k).1 := by
  simp only [ownedSlot]
  split
  · exact .answers
  · next sl live =>
    split
    · exact own sl live
    · exact .answers

theorem slotCreateBody_block {p : Port} {s : State} (active : (s.unit p).state = .active) (ps : List Byte) :
    Block p s (slotCreateBody p ps s).1 := by
  simp only [slotCreateBody]
  split
  · exact .answers
  · split
    · exact .answers
    · next inRange =>
      split
      · exact .answers
      · next line translated =>
        split
        · exact .answers
        · next unused =>
          split
          · exact .answers
          · next n found =>
            exact .slotCreate n line _ _ _ _ active (translate_ne_zero translated) (by omega) (by omega) (by omega)
              (by simpa using unused) (getElem?_of_findIdx?_isNone found)

theorem slotSettingsOf_takeoverAfter {ps : List Byte} {c : SlotSettings} (h : slotSettingsOf ps = some c) :
    1 ≤ c.takeoverAfter ∧ c.takeoverAfter ≤ 7 := by
  simp only [slotSettingsOf] at h
  split at h
  · split at h
    · split at h
      · next bounds => obtain rfl := Option.some.inj h; exact bounds.2
      · simp at h
    · simp at h
  · simp at h

theorem slotConfigureBody_block (p : Port) (ps : List Byte) (s : State) : Block p s (slotConfigureBody p ps s).1 := by
  simp only [slotConfigureBody]
  split
  · exact .answers
  · next c read =>
    split
    · exact .answers
    · refine ownedSlot_block fun sl live => ?_
      obtain ⟨low, high⟩ := slotSettingsOf_takeoverAfter read
      split
      · exact .answers
      · next stopped =>
        split
        · next fit => exact .slotConfigure _ sl c live (by simpa using stopped) low high fit
        · exact .answers

theorem slotStartBody_block (p : Port) (ps : List Byte) (s : State) : Block p s (slotStartBody p ps s).1 := by
  simp only [slotStartBody]
  split
  · exact .answers
  · refine ownedSlot_block fun sl live => ?_
    split
    · next stopped => exact .slotStart _ sl live stopped
    · next finishing => exact .slotGoOn _ sl live finishing
    all_goals exact .answers

theorem slotStopBody_block (p : Port) (ps : List Byte) (s : State) : Block p s (slotStopBody p ps s).1 := by
  simp only [slotStopBody]
  split
  · exact .answers
  · split
    · exact .answers
    · refine ownedSlot_block fun sl live => ?_
      split
      · exact .answers
      · next running _ => exact .slotFinish _ sl live running
      · exact .answers
      · next held _ => exact .slotFinishHeld _ sl live held
      · exact .answers
      · exact .slotStop _

theorem slotRefreshBody_block (p : Port) (ps : List Byte) (s : State) : Block p s (slotRefreshBody p ps s).1 := by
  simp only [slotRefreshBody]
  split
  · exact .answers
  · exact ownedSlot_block fun sl live => .slotRefresh _ sl _ live

theorem slotSetPeriodBody_block (p : Port) (ps : List Byte) (s : State) : Block p s (slotSetPeriodBody p ps s).1 := by
  simp only [slotSetPeriodBody]
  split
  · exact .answers
  · next inRange =>
    refine ownedSlot_block fun sl live => ?_
    split
    · exact .answers
    · next inside => exact .slotSetPeriod _ sl _ live (Nat.lt_of_not_le inside) (by omega)

theorem slotRemoveBody_block (p : Port) (ps : List Byte) (s : State) : Block p s (slotRemoveBody p ps s).1 := by
  simp only [slotRemoveBody]
  split
  · exact .answers
  · exact ownedSlot_block fun _ _ => .slotRemove _

theorem slotReadBody_block (p : Port) (ps : List Byte) (s : State) : Block p s (slotReadBody ps s).1 := by
  simp only [slotReadBody]
  split
  · exact .answers
  · split
    · exact .answers
    · split
      · exact .answers
      · exact .slotRead

theorem standinAttachBody_block {p : Port} {s : State} (active : (s.unit p).state = .active) (ps : List Byte) :
    Block p s (standinAttachBody p ps s).1 := by
  simp only [standinAttachBody]
  split
  · exact .answers
  · split
    · exact .answers
    · split
      · exact .answers
      · next sl live =>
        split
        · exact .answers
        · next foreign =>
          split
          · exact .answers
          · split
            · exact .answers
            · split
              · exact .standinAttach _ sl _ active live foreign
              · exact .answers

/-- A command that names a stand-in of its own port does what its meaning does to that slot, and otherwise nothing
(R123). -/
theorem ownStandIn_block {p : Port} {n : Nat} {s : State} {k : Slot → StandIn → Reply}
    (own : ∀ sl si, s.slot n = some sl → sl.standIn = some si → Block p s (k sl si).1) :
    Block p s (ownStandIn p n s k).1 := by
  simp only [ownStandIn]
  split
  · exact .answers
  · next sl live =>
    split
    · exact .answers
    · next si covered =>
      split
      · exact own sl si live covered
      · exact .answers

theorem standinRefreshBody_block (p : Port) (ps : List Byte) (s : State) : Block p s (standinRefreshBody p ps s).1 := by
  simp only [standinRefreshBody]
  split
  · exact .answers
  · exact ownStandIn_block fun sl si live covered => .standinRefresh _ sl si _ live covered

theorem standinDetachBody_block (p : Port) (ps : List Byte) (s : State) : Block p s (standinDetachBody p ps s).1 := by
  simp only [standinDetachBody]
  split
  · exact .answers
  · exact ownStandIn_block fun sl _ live _ => .standinDetach _ sl live

/-! ## The blocks of the line unit and the quiet input -/

theorem lineSetBody_block (p : Port) (ps : List Byte) (s : State) : Block p s (lineSetBody p ps s).1 := by
  simp only [lineSetBody]
  split
  · exact .answers
  · split
    · exact .answers
    · exact .lineSet _

theorem lineOnBody_block (p : Port) (ps : List Byte) (s : State) : Block p s (lineOnBody p ps s).1 := by
  simp only [lineOnBody]
  split
  · exact .answers
  · split
    · exact .answers
    · next off => exact .lineOn (by simpa using off)

theorem lineOffBody_block (p : Port) (ps : List Byte) (s : State) : Block p s (lineOffBody p ps s).1 := by
  simp only [lineOffBody]
  split
  · exact .answers
  · exact .lineOff

theorem lineResyncBody_block (p : Port) (ps : List Byte) (s : State) : Block p s (lineResyncBody p ps s).1 := by
  simp only [lineResyncBody]
  split
  · exact .answers
  · split
    · exact .answers
    · next on => exact .lineResync on

theorem quietConfigBody_block (p : Port) (ps : List Byte) (s : State) : Block p s (quietConfigBody p ps s).1 := by
  simp only [quietConfigBody]
  split
  · exact .answers
  · split
    · exact .answers
    · exact .quietConfig _

theorem quietClearBody_block (p : Port) (ps : List Byte) (s : State) : Block p s (quietClearBody ps s).1 := by
  simp only [quietClearBody]
  split
  · exact .answers
  · split
    · exact .answers
    · next latched => exact .quietClear (by simpa using latched)

/-! ## Every command -/

theorem stateCheck_attach {st : PortState} (h : stateCheck .attach st = none) : st = .detached := by
  cases st with
  | detached => rfl
  | active | dozing | waking => exact absurd h nofun

/-- A command whose list in R153 is ACTIVE alone finds its port ACTIVE. -/
theorem stateCheck_activeOnly {c : Command} {st : PortState} (h : stateCheck c st = none)
    (detached : stateCheck c .detached ≠ none) (dozing : stateCheck c .dozing ≠ none) : st = .active := by
  cases st with
  | active => rfl
  | detached => exact absurd h detached
  | dozing => exact absurd h dozing
  | waking => exact absurd (h : stateCheck c .dozing = none) dozing

/-- All that the block of a command can do to the state it finds. -/
theorem Command.body_block (c : Command) {p : Port} {s : State} (ps : List Byte)
    (taken : stateCheck c (s.unit p).state = none) : Block p s (c.body p ps s).1 := by
  cases c with
  | attach => exact .attach (stateCheck_attach taken)
  | detach => exact .detach
  | portReset => exact portResetBody_block p ps s
  | setPresence => exact setPresenceBody_block (stateCheck_activeOnly taken nofun nofun) ps
  | doze => exact dozeBody_block p ps s
  | resume => exact .resume
  | readStatus => exact .answers
  | readId => exact .answers
  | takeEvents => exact .takeEvents
  | setEventMask => exact .setEventMask _
  | leaseTake => exact leaseTakeBody_block (stateCheck_activeOnly taken nofun nofun) ps
  | leaseRelease => exact leaseReleaseBody_block p ps s
  | setWindow => exact setWindowBody_block p ps s
  | readWindow => exact readWindowBody_block p ps s
  | routeAdd => exact routeAddBody_block (stateCheck_activeOnly taken nofun nofun) ps
  | routeRemove => exact routeRemoveBody_block p ps s
  | routeRead => exact routeReadBody_block p ps s
  | routeList => exact .answers
  | fetch => exact fetchBody_block p ps s
  | flushRx => exact .flushRx
  | setReserve => exact setReserveBody_block p ps s
  | readPool => exact .answers
  | send => exact sendBody_block (stateCheck_activeOnly taken nofun nofun) ps
  | sendWake => exact sendWakeBody_block (stateCheck_activeOnly taken nofun nofun) ps
  | txFlush => exact txFlushBody_block p ps s
  | txStatus => exact txStatusBody_block p ps s
  | slotCreate => exact slotCreateBody_block (stateCheck_activeOnly taken nofun nofun) ps
  | slotConfigure => exact slotConfigureBody_block p ps s
  | slotStart => exact slotStartBody_block p ps s
  | slotStop => exact slotStopBody_block p ps s
  | slotRefresh => exact slotRefreshBody_block p ps s
  | slotSetPeriod => exact slotSetPeriodBody_block p ps s
  | slotRemove => exact slotRemoveBody_block p ps s
  | slotRead => exact slotReadBody_block p ps s
  | standinAttach => exact standinAttachBody_block (stateCheck_activeOnly taken nofun nofun) ps
  | standinRefresh => exact standinRefreshBody_block p ps s
  | standinDetach => exact standinDetachBody_block p ps s
  | lineSet => exact lineSetBody_block p ps s
  | lineOn => exact lineOnBody_block p ps s
  | lineOff => exact lineOffBody_block p ps s
  | lineResync => exact lineResyncBody_block p ps s
  | readLine => exact .answers
  | quietConfig => exact quietConfigBody_block p ps s
  | quietClear => exact quietClearBody_block p ps s

end Sys2Proof.Machine

/-! PROOF. What a step can do: every step is a sequence of changes, each an exchange on a port, the block of a command, or
an event. An invariant that every change keeps, every step keeps. -/

namespace Sys2Proof.Machine

/-! ## The exchange on a port -/

/-- What a transaction does to its port beside the command's block: the octets shifted out, the holder and the mark of a
stale chip select, and the presence timer of an ACTIVE port (09, R150, R158; 11, R176). -/
structure Exchanged (u v : PortUnit) : Prop where
  unit : v = { u with
    sdo := v.sdo, holder := v.holder, staleSelect := v.staleSelect, presenceTimer := v.presenceTimer }
  timer : u.state ≠ .active → v.presenceTimer = u.presenceTimer

theorem exchanged_sdo (u : PortUnit) (octets : List Byte) : Exchanged u { u with sdo := octets } := ⟨rfl, fun _ => rfl⟩

theorem exchanged_holder (u : PortUnit) (r : Response) : Exchanged u { u with holder := r } := ⟨rfl, fun _ => rfl⟩

theorem exchanged_staleSelect (u : PortUnit) (b : Bool) : Exchanged u { u with staleSelect := b } := ⟨rfl, fun _ => rfl⟩

theorem exchanged_restartPresence (u : PortUnit) : Exchanged u u.restartPresence := by
  by_cases active : u.state = .active
  · rw [PortUnit.restartPresence_active active]
    exact ⟨rfl, fun other => absurd active other⟩
  · rw [PortUnit.restartPresence_other active]
    exact ⟨rfl, fun _ => rfl⟩

/-! ## The events -/

/-- The states that an event of the line, the timers, the pins and the loader can leave, each under its condition; a tick
settles the expiries that are due before it, each an event of its own (log 5). -/
inductive Event (s : State) : State → Prop
  | draw : Event s s.drawn
  | receive (r : Reception) (on : s.line.state ≠ .off) (idle : s.line.inFlight = none) : Event s (receive r s)
  | begin (c : Candidate) (may : s.mayTransmit = true) (chosen : choose s.candidates = some c) : Event s (beginAttempt c s)
  | sent (r : InFlight) (flies : s.line.inFlight = some r) : Event s (endSent r s)
  | lost (r : InFlight) (flies : s.line.inFlight = some r) : Event s (endLost s)
  | failed (r : InFlight) (flies : s.line.inFlight = some r) : Event s (endError r s)
  | dwell (searching : s.line.state = .search) : Event s (dwellExpiry s)
  | silence (synced : s.line.state = .synced) : Event s (silenceExpiry s)
  | window : Event s { s with detector := none }
  | detach (p : Port) (cause : DetachCause) : Event s (teardown p cause s)
  | wakeTimer (p : Port) : Event s (wakeTimerExpiry p s)
  | slot (n : Nat) (sl : Slot) (live : s.slot n = some sl) (runs : sl.state.runs = true) : Event s (expire n s)
  | trigger (pin : TrigPin) (sense : Sense) : Event s (triggerEdge pin sense s)
  | pin (level : Bool) : Event s { s with quiet := { s.quiet with pin := level } }
  | latch (ready : s.loader.state = .ready) (clear : s.quiet.latch = false) : Event s (setLatch s)
  | tick : Event s (advance s)
  | load (image : List Byte) (i : Image) (live : s.resetting = none) (loading : s.loader.state = .loading)
      (read : readImage image = some i) : Event s (installImage i s)
  | loadFails (live : s.resetting = none) (loading : s.loader.state = .loading) : Event s (installBuiltIn true s)
  | resetStart (kind : ResetKind) : Event s (resetStart kind s)
  | resetEnd (kind : ResetKind) (pins : PinsAtEnd) (lasts : s.resetting = some kind) :
      Event s (loadDecision (resetValues kind pins s))

/-- An expiry that is due is an event. -/
theorem expiryEffect_event {s : State} (live : s.resetting = none) {e : Expiry} (due : s.isDue e = true) :
    Event s (expiryEffect e s) := by
  cases e with
  | dwell =>
    simp only [State.isDue, Bool.and_eq_true, beq_iff_eq] at due
    exact .dwell due.1
  | silence =>
    simp only [State.isDue, Bool.and_eq_true, beq_iff_eq] at due
    exact .silence due.1
  | window => exact .window
  | load =>
    simp only [State.isDue, Bool.and_eq_true, beq_iff_eq] at due
    exact .loadFails live due.1
  | presence p => exact .detach p .presence
  | wake p => exact .wakeTimer p
  | acknowledge p => exact .detach p .wakeUnanswered
  | slot n =>
    simp only [State.isDue] at due
    split at due
    · next sl found =>
      refine .slot n sl found ?_
      simp only [Slot.expired, Bool.and_eq_true, Bool.or_eq_true, beq_iff_eq] at due
      obtain ⟨running | finishing, -⟩ := due
      · rw [running]; rfl
      · rw [finishing]; rfl
    · simp at due

@[simp] theorem expiryEffect_resetting (e : Expiry) (s : State) : (expiryEffect e s).resetting = s.resetting := by
  cases e <;> simp [expiryEffect]

@[simp] theorem takeExpiry_resetting (e : Expiry) (s : State) : (takeExpiry e s).resetting = s.resetting := by
  unfold takeExpiry; split <;> simp

/-! ## The changes -/

/-- One change of the hub. -/
inductive Change (s : State) : State → Prop
  | exchange (p : Port) (u : PortUnit) (exchanged : Exchanged (s.unit p) u) : Change s (s.setUnit p u)
  | block (p : Port) (t : State) (ready : s.Ready p) (done : Block p s t) : Change s t
  | event (t : State) (done : Event s t) : Change s t

/-- The states reached by changes. -/
abbrev Changes : State → State → Prop := Relation.ReflTransGen Change

theorem Changes.exchange {s t : State} (h : Changes s t) (p : Port) {u : PortUnit} (exchanged : Exchanged (t.unit p) u) :
    Changes s (t.setUnit p u) := h.tail (.exchange p u exchanged)

theorem Changes.event {s t u : State} (h : Changes s t) (done : Event t u) : Changes s u := h.tail (.event u done)

theorem Changes.heard {s t : State} (h : Changes s t) (p : Port) (n : Nat) : Changes s (t.heard p n) :=
  (h.exchange p (exchanged_sdo _ _)).exchange p (exchanged_restartPresence _)

theorem Changes.setHolder {s t : State} (h : Changes s t) (p : Port) (r : Response) : Changes s (t.setHolder p r) :=
  h.exchange p (exchanged_holder _ r)

/-! ## The transactions -/

theorem portCommand_changes (c : Command) (p : Port) (rest : List Byte) (s : State) :
    Changes s (portCommand c p rest (c.body p) s) :=
  portCommand_keeps (I := Changes s) .refl (fun _ n h => h.heard p n) (fun _ r h => h.setHolder p r)
    (fun _ h => h.exchange p (exchanged_staleSelect _ false))
    (fun ps _ h ready taken => h.tail (.block p _ ready (c.body_block ps taken)))

theorem noCommand_changes (p : Port) (n : Nat) (s : State) : Changes s (noCommand p n s) :=
  whenSelected_keeps (I := Changes s) .refl (fun _ h => h.exchange p (exchanged_staleSelect _ false))
    fun _ => Changes.exchange .refl p (exchanged_sdo _ _)

theorem unknown_changes (p : Port) (n : Nat) (s : State) : Changes s (carried p n (fun t => refuse t .unknown) s) := by
  refine whenSelected_keeps (I := Changes s) .refl (fun _ h => h.exchange p (exchanged_staleSelect _ false)) fun _ => ?_
  have heard : Changes s (s.heard p n) := Changes.heard .refl p n
  dsimp only
  split <;> exact heard.setHolder p _

theorem transaction_changes (p : Port) (octets : List Byte) (s : State) : Changes s (transaction p octets s) := by
  unfold transaction
  split
  · exact noCommand_changes p 0 s
  · split
    · exact noCommand_changes p _ s
    · split
      · exact unknown_changes p _ s
      · exact portCommand_changes _ p _ s

/-- Each command row is the transaction that clocks in its code (12, R183). -/
theorem exec_row (c : Command) (p : Port) (rest : List Byte) (s : State) :
    exec (c.row p rest) s = .next (portCommand c p rest (c.body p) s) := by
  cases c <;> rfl

/-! ## The rows of the events -/

theorem whenLive_changes {f : State → State} {s : State} (h : s.resetting = none → Changes s (f s)) :
    Changes s (whenLive f s) := by
  by_cases live : s.resetting = none
  · rw [whenLive_of_none f live]; exact h live
  · rw [whenLive_of_some f live]

theorem takeExpiry_changes {s t : State} (h : Changes s t) (live : t.resetting = none) (e : Expiry) :
    Changes s (takeExpiry e t) := by
  unfold takeExpiry
  split
  · next due => exact h.event (expiryEffect_event live due)
  · exact h

theorem whenLive_takeExpiry_changes (e : Expiry) (s : State) : Changes s (whenLive (takeExpiry e) s) :=
  whenLive_changes fun live => takeExpiry_changes .refl live e

theorem tick_changes (s : State) : Changes s (whenLive (fun t => advance (settle expiryCount t)) s) := by
  refine whenLive_changes fun live => Changes.event ?_ .tick
  refine (settle_keeps (I := fun t => Changes s t ∧ t.resetting = none) ?_ ?_ expiryCount ⟨.refl, live⟩).1
  · rintro e t ⟨h, live⟩
    exact ⟨takeExpiry_changes h live e, by rw [takeExpiry_resetting, live]⟩
  · rintro t ⟨h, live⟩
    exact ⟨h.event .draw, live⟩

theorem transmissionStart_changes (s : State) : Changes s (transmissionStart s) := by
  unfold transmissionStart
  split
  · next may =>
    split
    · next c chosen => exact Changes.event .refl (.begin c may chosen)
    · exact .refl
  · exact .refl

theorem contend_changes (winner : Label) (s : State) : Changes s (contend winner s) := by
  unfold contend
  split
  · next r flies =>
    split
    · exact Changes.event .refl (.lost r flies)
    · exact .refl
  · exact .refl

theorem echoError_changes (s : State) : Changes s (echoError s) := by
  unfold echoError
  split
  · next r flies => exact Changes.event .refl (.failed r flies)
  · exact .refl

theorem attemptSent_changes (s : State) : Changes s (attemptSent s) := by
  unfold attemptSent
  split
  · next r flies => exact Changes.event .refl (.sent r flies)
  · exact .refl

theorem reception_changes (act : LineActivity) (s : State) :
    Changes s (if s.receives act.began then receive (judge act) s else s) := by
  split
  · next hears =>
    simp only [State.receives, Bool.and_eq_true, bne_iff_ne, Option.isNone_iff_eq_none] at hears
    exact Changes.event .refl (.receive _ hears.1.1 hears.1.2)
  · exact .refl

theorem quietEdge_changes (sense : Sense) (s : State) : Changes s (quietEdge sense s) := by
  have moved := Changes.event (s := s) .refl (.pin (levelAfter sense))
  refine moved.trans (whenLive_changes fun _ => ?_)
  unfold actOnEdge
  split
  · next acts => exact Changes.event .refl (.latch acts.1 acts.2.2)
  · exact .refl

theorem whileLoading_changes {f : State → State} {s : State} (h : s.loader.state = .loading → Changes s (f s)) :
    Changes s (whileLoading f s) := by
  unfold whileLoading
  split
  · next loading => exact h loading
  · exact .refl

theorem imageRead_changes (image : List Byte) (s : State) : Changes s (whenLive (whileLoading (imageRead image)) s) := by
  refine whenLive_changes fun live => whileLoading_changes fun loading => ?_
  unfold imageRead
  split
  · next i read => exact Changes.event .refl (.load image i live loading read)
  · exact Changes.event .refl (.loadFails live loading)

theorem missingAcknowledge_changes (s : State) : Changes s (whenLive (whileLoading (installBuiltIn true)) s) :=
  whenLive_changes fun live => whileLoading_changes fun loading => Changes.event .refl (.loadFails live loading)

theorem resetEnd_changes (pins : PinsAtEnd) (s : State) : Changes s (resetEnd pins s) := by
  unfold resetEnd
  split
  · next kind lasts => exact Changes.event .refl (.resetEnd kind pins lasts)
  · exact .refl

/-! ## Every row, and every step -/

/-- Every row answers a next state, which changes lead to (log 19). -/
theorem exec_changes (i : Instr) (s : State) : ∃ t, exec i s = .next t ∧ Changes s t := by
  cases i with
  | transactionWithoutCommand p octets => exact ⟨_, rfl, transaction_changes p octets s⟩
  | unknownCommand p code rest => exact ⟨_, rfl, transaction_changes p (code :: rest) s⟩
  | receptionEnd act => exact ⟨_, rfl, whenLive_changes fun _ => reception_changes act s⟩
  | generalWakeWindowEnd | dwellExpiry | silenceExpiry | slotExpiry _ | presenceExpiry _ | wakeTimerExpiry _
  | wakeAcknowledgeExpiry _ | loadTimeLimit => exact ⟨_, rfl, whenLive_takeExpiry_changes _ s⟩
  | transmissionStart => exact ⟨_, rfl, whenLive_changes fun _ => transmissionStart_changes s⟩
  | contentionLoss winner => exact ⟨_, rfl, whenLive_changes fun _ => contend_changes winner s⟩
  | echoError => exact ⟨_, rfl, whenLive_changes fun _ => echoError_changes s⟩
  | attemptSent => exact ⟨_, rfl, whenLive_changes fun _ => attemptSent_changes s⟩
  | triggerEdge pin sense => exact ⟨_, rfl, whenLive_changes fun _ => Changes.event .refl (.trigger pin sense)⟩
  | quietEdge sense => exact ⟨_, rfl, quietEdge_changes sense s⟩
  | timebaseTick => exact ⟨_, rfl, tick_changes s⟩
  | deviceResetStart kind => exact ⟨_, rfl, Changes.event .refl (.resetStart kind)⟩
  | deviceResetEnd pins => exact ⟨_, rfl, resetEnd_changes pins s⟩
  | imageReadComplete image => exact ⟨_, rfl, imageRead_changes image s⟩
  | missingAcknowledge => exact ⟨_, rfl, missingAcknowledge_changes s⟩
  | _ p rest => exact ⟨_, rfl, portCommand_changes _ p rest s⟩

/-- Every step takes the queue's front and is then a sequence of changes. -/
theorem step_changes {s t : State} (h : step s = .next t) : ∃ rest, Changes { s with pending := rest } t := by
  obtain ⟨-, rfl⟩ | ⟨c, rest, -, done⟩ := step_cases h
  · exact ⟨t.pending, .refl⟩
  · obtain ⟨u, answer, changes⟩ := exec_changes c { s with pending := rest }
    obtain rfl := Host.Outcome.next.inj (answer.symm.trans done)
    exact ⟨rest, changes⟩

/-- Every change keeps `I`, one proof for each of the three kinds of change; and `I` does not speak of the queue. -/
structure Kept (I : State → Prop) : Prop where
  exchange : ∀ {s : State} {p : Port} {u : PortUnit}, I s → Exchanged (s.unit p) u → I (s.setUnit p u)
  block : ∀ {s t : State} {p : Port}, I s → s.Ready p → Block p s t → I t
  event : ∀ {s t : State}, I s → Event s t → I t
  queue : ∀ {s : State} {rest : List Instr}, I s → I { s with pending := rest } := by exact fun h => h

theorem Kept.changes {I : State → Prop} (kept : Kept I) {s t : State} (hs : I s) (h : Changes s t) : I t := by
  induction h with
  | refl => exact hs
  | tail _ change ih =>
    cases change with
    | exchange p u exchanged => exact kept.exchange ih exchanged
    | block p t ready done => exact kept.block ih ready done
    | event t done => exact kept.event ih done

/-- What every change keeps, every step keeps. -/
theorem Kept.step {I : State → Prop} (kept : Kept I) (s t : State) (hs : I s) (h : step s = .next t) : I t := by
  obtain ⟨rest, changes⟩ := step_changes h
  exact kept.changes (kept.queue hs) changes

end Sys2Proof.Machine

/-! PROOF. What the operations do to port units: beside the commands that write a unit of their own port, they raise flags
and present wake causes, and nothing else (08, R140; 09, R162). -/

namespace Sys2Proof.Machine

/-! ## A unit stirred -/

/-- A unit gains flags, which a DETACHED one does not, or is presented a wake cause. -/
inductive Stir (u : PortUnit) : PortUnit → Prop
  | flags (fl : BitVec 16) (gained : u.flags &&& fl = u.flags) (detached : u.state = .detached → fl = u.flags) :
      Stir u { u with flags := fl }
  | cause (c : WakeCause) (stamp : Stamp) : Stir u (u.takeCause c stamp)

/-- The port units are as before but for flags gained and wake causes taken. -/
def Stirs (s t : State) : Prop := ∀ q, Relation.ReflTransGen Stir (s.unit q) (t.unit q)

theorem Stirs.refl (s : State) : Stirs s s := fun _ => .refl

theorem Stirs.trans {s t u : State} (h : Stirs s t) (k : Stirs t u) : Stirs s u := fun q => (h q).trans (k q)

theorem FlagsGained.stirs {s t : State} (h : FlagsGained s t) : Stirs s t := fun q => by
  obtain ⟨fl, unit, gained, detached⟩ := h q
  rw [unit]
  exact .single (.flags fl gained detached)

theorem Stirs.of_ports {s t : State} (h : t.ports = s.ports) : Stirs s t := (FlagsGained.of_ports h).stirs

/-- A step that leaves the port units may come first. -/
theorem Stirs.after {s t u : State} (h : Stirs t u) (ports : t.ports = s.ports) : Stirs s u := (of_ports ports).trans h

theorem Stirs.before {s t u : State} (h : Stirs s t) (ports : u.ports = t.ports) : Stirs s u := h.trans (of_ports ports)

/-- What flags gained and causes taken keep, stirring keeps. -/
theorem Stir.keeps {P : PortUnit → Prop}
    (flags : ∀ u fl, (u.state = .detached → fl = u.flags) → P u → P { u with flags := fl })
    (cause : ∀ u c stamp, P u → P (u.takeCause c stamp)) {u v : PortUnit} (h : Relation.ReflTransGen Stir u v)
    (hu : P u) : P v := by
  induction h with
  | refl => exact hu
  | tail _ stir ih =>
    cases stir with
    | flags fl _ detached => exact flags _ fl detached ih
    | cause c stamp => exact cause _ c stamp ih

/-! ## What a wake cause leaves -/

/-- A wake cause is ignored, or a DOZING port takes it and becomes WAKING (R140, R145). -/
theorem PortUnit.takeCause_cases (u : PortUnit) (c : WakeCause) (stamp : Stamp) :
    u.takeCause c stamp = u ∨ u.state = .dozing ∧ u.takeCause c stamp = u.enterWaking c stamp := by
  unfold PortUnit.takeCause
  split
  · next h => exact .inr ⟨h.1, rfl⟩
  · exact .inl rfl

theorem PortUnit.takeCause_of_ne {u : PortUnit} (h : u.state ≠ .dozing) (c : WakeCause) (stamp : Stamp) :
    u.takeCause c stamp = u := by
  obtain same | ⟨dozing, -⟩ := u.takeCause_cases c stamp
  · exact same
  · exact absurd dozing h

@[simp] theorem PortUnit.takeCause_defaults (u : PortUnit) (c : WakeCause) (stamp : Stamp) :
    (u.takeCause c stamp).defaults = u.defaults := by
  unfold PortUnit.takeCause; split <;> rfl

@[simp] theorem PortUnit.takeCause_flags (u : PortUnit) (c : WakeCause) (stamp : Stamp) :
    (u.takeCause c stamp).flags = u.flags := by
  unfold PortUnit.takeCause; split <;> rfl

theorem Stirs.defaults {s t : State} (h : Stirs s t) (q : Port) : (t.unit q).defaults = (s.unit q).defaults :=
  Stir.keeps (P := fun u => u.defaults = (s.unit q).defaults) (fun _ _ _ hu => hu) (fun u c stamp hu => by simpa using hu)
    (h q) rfl

/-- Nothing wakes an ACTIVE port. -/
theorem Stirs.active {s t : State} (h : Stirs s t) {q : Port} (hs : (s.unit q).state = .active) :
    (t.unit q).state = .active :=
  Stir.keeps (P := fun u => u.state = .active) (fun _ _ _ hu => hu)
    (fun u c stamp hu => by rw [PortUnit.takeCause_of_ne (by simp [hu])]; exact hu) (h q) hs

/-- Nothing detaches a port that is not DETACHED. -/
theorem Stirs.attached {s t : State} (h : Stirs s t) {q : Port} (hs : (s.unit q).state ≠ .detached) :
    (t.unit q).state ≠ .detached := by
  refine Stir.keeps (P := fun u => u.state ≠ .detached) (fun _ _ _ hu => hu) (fun u c stamp hu => ?_) (h q) hs
  obtain same | ⟨-, woken⟩ := u.takeCause_cases c stamp
  · rw [same]; exact hu
  · rw [woken]; nofun

/-- A DETACHED port stays as it is. -/
theorem Stirs.detached {s t : State} (h : Stirs s t) {q : Port} (hs : (s.unit q).state = .detached) :
    t.unit q = s.unit q := by
  refine Stir.keeps (P := fun u => u = s.unit q) (fun u fl same hu => ?_) (fun u c stamp hu => ?_) (h q) rfl
  · subst hu; rw [same hs]
  · subst hu; exact PortUnit.takeCause_of_ne (by simp [hs]) c stamp

/-! ## The shared operations -/

theorem present_stirs (p : Port) (c : WakeCause) (stamp : Stamp) (s : State) : Stirs s (present p c stamp s) := by
  intro q
  by_cases h : q = p
  · subst h; rw [State.present_unit_same]; exact .single (.cause c stamp)
  · rw [State.present_unit_ne s p c stamp h]

theorem presentLine_stirs (s : State) : Stirs s (presentLine s) := fun q => by
  rw [State.presentLine_unit]; exact .single (.cause _ _)

theorem presentCauses_stirs (p : Port) (route : Option Nat) (general : Bool) (stamp : Stamp) (s : State) :
    Stirs s (presentCauses p route general stamp s) := by
  simp only [presentCauses]
  split
  · exact .refl s
  · exact present_stirs _ _ _ _
  · exact present_stirs _ _ _ _
  · split
    all_goals exact ((present_stirs _ _ _ _).trans (present_stirs _ _ _ _)).after rfl

theorem wakePorts_stirs (o : Offer) (ds : Quad Delivery) (memory : Option Remembered) (s : State) :
    Stirs s (wakePorts o ds memory s) := by
  simp only [wakePorts, Port.list, List.foldl]
  exact (((presentCauses_stirs _ _ _ _ _).trans (presentCauses_stirs _ _ _ _ _)).trans
    (presentCauses_stirs _ _ _ _ _)).trans (presentCauses_stirs _ _ _ _ _)

theorem offer_stirs (o : Offer) (answer : Bool) (s : State) : Stirs s (offer o answer s) := by
  have group := (admitGroup_flagsGained (o.decisions s).a.copy (o.decisions s).b.copy (o.decisions s).c.copy
    (o.decisions s).d.copy s).stirs
  have woken := group.trans (wakePorts_stirs o (o.decisions s) s.detector _)
  simp only [offer]
  split
  · exact woken.trans ((answerQuery_effect _ _).units.stirs.after rfl)
  · exact woken.before rfl

theorem enterDegraded_stirs (s : State) : Stirs s (enterDegraded s) :=
  ((State.raiseAll_flagsGained _ _).stirs.trans (presentLine_stirs _)).after rfl

theorem checkDegraded_stirs (s : State) : Stirs s (checkDegraded s) := by
  unfold checkDegraded
  split
  · exact enterDegraded_stirs s
  · exact .refl s

theorem cleanReception_stirs (s : State) : Stirs s (cleanReception s) := by
  unfold cleanReception
  split
  · exact .refl s
  · exact .refl s
  · split
    · exact (State.raiseAll_flagsGained _ _).stirs.after rfl
    · exact .of_ports rfl
  · exact .of_ports rfl

theorem receptionError_stirs (s : State) : Stirs s (receptionError s) := by
  unfold receptionError
  split
  · exact .refl s
  · exact .refl s
  · exact .of_ports rfl
  · exact (checkDegraded_stirs _).after rfl

theorem receive_stirs (r : Reception) (s : State) : Stirs s (receive r s) := by
  cases r with
  | clean t => exact (cleanReception_stirs s).trans (offer_stirs _ _ _)
  | codingError | formatError | checkError => exact receptionError_stirs s

theorem beginAttempt_stirs (c : Candidate) (s : State) : Stirs s (beginAttempt c s) := by
  unfold beginAttempt
  split
  · exact (offer_stirs _ _ _).trans (reportSent_flagsGained _ _).stirs
  · exact .of_ports rfl

theorem endSent_stirs (r : InFlight) (s : State) : Stirs s (endSent r s) :=
  ((offer_stirs _ _ _).trans (reportSent_flagsGained _ _).stirs).after rfl

theorem endError_stirs (r : InFlight) (s : State) : Stirs s (endError r s) :=
  ((reportError_flagsGained _ _).stirs.trans (checkDegraded_stirs _)).after rfl

theorem abortAttempt_stirs (s : State) : Stirs s (abortAttempt s) := .of_ports (by simp)

theorem startLine_stirs (s : State) : Stirs s (startLine s) := by
  unfold startLine announceLine
  split
  · exact .of_ports rfl
  · exact (State.raiseAll_flagsGained _ _).stirs.after rfl

theorem turnLineOff_stirs (s : State) : Stirs s (turnLineOff s) := by
  unfold turnLineOff
  split
  · exact .refl s
  · exact ((State.raiseAll_flagsGained _ _).stirs.trans (presentLine_stirs _)).after (by simp)

theorem setLatch_stirs (s : State) : Stirs s (setLatch s) :=
  (State.raiseActive_flagsGained _ _).stirs.after (by simp)

theorem silenceExpiry_stirs (s : State) : Stirs s (silenceExpiry s) :=
  (State.raiseActive_flagsGained _ _).stirs.after rfl

/-! ## The operations that write the unit of their port -/

/-- The state a teardown has reached after its sixth step: everything released, the unit not yet torn down (R160). -/
def released (p : Port) (s : State) : State :=
  forSlots (dropStandIn p) (forSlots (disposeSlot p) (freeRoutes p (clearRx p (clearTx p (releaseLease p s)))))

theorem teardown_eq (p : Port) (cause : DetachCause) (s : State) :
    teardown p cause s = (released p s).modUnit p (fun u => u.tornDown cause) := rfl

theorem released_flagsGained (p : Port) (s : State) : FlagsGained s (released p s) := by
  have cleared : FlagsGained s (freeRoutes p (clearRx p (clearTx p (releaseLease p s)))) :=
    (releaseLease_flagsGained p s).trans (.of_ports (by simp))
  exact (cleared.trans (forSlots_effect (disposeSlot_effect p) _).units).trans
    (forSlots_effect (dropStandIn_effect p) _).units

/-- Every other port gains flags alone by a teardown. -/
theorem teardown_unit_ne {p q : Port} (h : q ≠ p) (cause : DetachCause) (s : State) :
    (teardown p cause s).unit q = (released p s).unit q := State.modUnit_unit_ne _ _ _ h

theorem teardown_unit_same (p : Port) (cause : DetachCause) (s : State) :
    (teardown p cause s).unit p = ((released p s).unit p).tornDown cause := State.modUnit_unit_same _ _ _

/-- The flags a port has gained do not show in the unit a teardown leaves. -/
theorem teardown_unit_same_eq (p : Port) (cause : DetachCause) (s : State) :
    (teardown p cause s).unit p = (s.unit p).tornDown cause := by
  obtain ⟨fl, gained, -⟩ := released_flagsGained p s p
  rw [teardown_unit_same, gained]
  rfl

@[simp] theorem teardown_unit_defaults (p q : Port) (cause : DetachCause) (s : State) :
    ((teardown p cause s).unit q).defaults = (s.unit q).defaults := by
  by_cases h : q = p
  · subst h; rw [teardown_unit_same_eq]; rfl
  · rw [teardown_unit_ne h]; exact (released_flagsGained p s).stirs.defaults q

/-- A DOZE writes its port's unit, and beside that raises flags and presents a cause. -/
theorem takeDoze_stirs (p : Port) (w : WakeSet) (period : Nat) (s : State) :
    Stirs ((releaseLease p s).modUnit p (fun u => u.doze (s.effectiveSet p w) period)) (takeDoze p w period s) := by
  simp only [takeDoze]
  have fault (t : State) :
      Stirs t (if (w.selective && !s.selectiveCheck p) = true then t.raise p .wakeCfgFault else t) := by
    split
    · exact (State.raise_flagsGained _ _ _).stirs
    · exact .refl _
  split
  · exact (fault _).trans (present_stirs _ _ _ _)
  · exact fault _

theorem restoreDefaults_unit_same (p : Port) (s : State) :
    (restoreDefaults p s).unit p =
      { s.unit p with presenceInterval := (s.unit p).defaults.presenceInterval, mask := (s.unit p).defaults.mask } := by
  cases p <;> rfl

theorem restoreDefaults_unit_ne {p q : Port} (h : q ≠ p) (s : State) : (restoreDefaults p s).unit q = s.unit q := by
  simp only [restoreDefaults]
  rw [State.modUnit_unit_ne _ _ _ h]
  rfl

/-- The restored settings are no part of a unit's state. -/
theorem restoreDefaults_unit (p q : Port) (s : State) :
    ∃ interval mask, (restoreDefaults p s).unit q = { s.unit q with presenceInterval := interval, mask := mask } := by
  by_cases h : q = p
  · subst h; exact ⟨_, _, restoreDefaults_unit_same q s⟩
  · exact ⟨_, _, restoreDefaults_unit_ne h s⟩

@[simp] theorem PortUnit.startPresence_state (u : PortUnit) : u.startPresence.state = u.state := rfl

/-! ## The loaded defaults -/

theorem State.modUnit_defaults {p : Port} {f : PortUnit → PortUnit} (h : ∀ u, (f u).defaults = u.defaults) (s : State)
    (q : Port) : ((s.modUnit p f).unit q).defaults = (s.unit q).defaults := by
  by_cases hq : q = p
  · subst hq; rw [State.modUnit_unit_same, h]
  · rw [State.modUnit_unit_ne _ _ _ hq]

theorem Exchanged.setUnit_defaults {s : State} {p : Port} {u : PortUnit} (h : Exchanged (s.unit p) u) (q : Port) :
    ((s.setUnit p u).unit q).defaults = (s.unit q).defaults := by
  by_cases hq : q = p
  · subst hq; rw [State.setUnit_unit_same, h.unit]
  · rw [State.setUnit_unit_ne _ _ _ hq]

@[simp] theorem restoreDefaults_defaults (p q : Port) (s : State) :
    ((restoreDefaults p s).unit q).defaults = (s.unit q).defaults := by
  obtain ⟨_, _, unit⟩ := restoreDefaults_unit p q s
  rw [unit]

/-- No command writes the loaded defaults (11, R179). -/
theorem Block.defaults {p : Port} {s t : State} (h : Block p s t) (q : Port) :
    (t.unit q).defaults = (s.unit q).defaults := by
  cases h with
  | attach | setPresence | resume | takeEvents | setEventMask => exact State.modUnit_defaults (by intro; rfl) s q
  | resetDetached => rw [restoreDefaults_defaults]; exact State.modUnit_defaults (by intro; rfl) s q
  | detach => exact teardown_unit_defaults p q _ s
  | resetAttached => rw [restoreDefaults_defaults, teardown_unit_defaults]
  | doze w period =>
    rw [(takeDoze_stirs p w period s).defaults q]
    exact (State.modUnit_defaults (by intro; rfl) _ q).trans ((releaseLease_flagsGained p s).stirs.defaults q)
  | leaseRelease => exact (releaseLease_flagsGained p s).stirs.defaults q
  | slotStop n => exact (stopNow_effect n s).units.stirs.defaults q
  | slotRemove n => exact (removeSlot_effect n s).units.stirs.defaults q
  | standinDetach n sl => exact ((State.raise_flagsGained _ _ _).stirs.after rfl).defaults q
  | lineOn => exact (startLine_stirs s).defaults q
  | lineOff => exact (turnLineOff_stirs s).defaults q
  | lineResync => exact ((abortAttempt_stirs s).trans (startLine_stirs _)).defaults q
  | send | sendWake => exact (Stirs.of_ports (by simp)).defaults q
  | _ => rfl

end Sys2Proof.Machine

/-! PROOF. What the receptions and the ends of an attempt leave as it was: one lemma for each operation and each part of the
state that the invariants speak of. -/

namespace Sys2Proof.Machine

/-! ## `cleanReception` -/

@[simp] theorem cleanReception_windows (s : State) : (cleanReception s).windows = s.windows := by
  simp only [cleanReception]; repeat' split
  all_goals simp
@[simp] theorem cleanReception_routes (s : State) : (cleanReception s).routes = s.routes := by
  simp only [cleanReception]; repeat' split
  all_goals simp
@[simp] theorem cleanReception_rx (s : State) : (cleanReception s).rx = s.rx := by
  simp only [cleanReception]; repeat' split
  all_goals simp
@[simp] theorem cleanReception_tx (s : State) : (cleanReception s).tx = s.tx := by
  simp only [cleanReception]; repeat' split
  all_goals simp
@[simp] theorem cleanReception_slots (s : State) : (cleanReception s).slots = s.slots := by
  simp only [cleanReception]; repeat' split
  all_goals simp
@[simp] theorem cleanReception_quiet (s : State) : (cleanReception s).quiet = s.quiet := by
  simp only [cleanReception]; repeat' split
  all_goals simp
@[simp] theorem cleanReception_loader (s : State) : (cleanReception s).loader = s.loader := by
  simp only [cleanReception]; repeat' split
  all_goals simp
@[simp] theorem cleanReception_resetting (s : State) : (cleanReception s).resetting = s.resetting := by
  simp only [cleanReception]; repeat' split
  all_goals simp
@[simp] theorem cleanReception_stamp (s : State) : (cleanReception s).stamp = s.stamp := by
  simp only [cleanReception]; repeat' split
  all_goals simp
@[simp] theorem cleanReception_pending (s : State) : (cleanReception s).pending = s.pending := by
  simp only [cleanReception]; repeat' split
  all_goals simp

/-! ## `receptionError` -/

@[simp] theorem receptionError_windows (s : State) : (receptionError s).windows = s.windows := by
  simp only [receptionError]; split
  all_goals simp
@[simp] theorem receptionError_routes (s : State) : (receptionError s).routes = s.routes := by
  simp only [receptionError]; split
  all_goals simp
@[simp] theorem receptionError_rx (s : State) : (receptionError s).rx = s.rx := by
  simp only [receptionError]; split
  all_goals simp
@[simp] theorem receptionError_tx (s : State) : (receptionError s).tx = s.tx := by
  simp only [receptionError]; split
  all_goals simp
@[simp] theorem receptionError_slots (s : State) : (receptionError s).slots = s.slots := by
  simp only [receptionError]; split
  all_goals simp
@[simp] theorem receptionError_quiet (s : State) : (receptionError s).quiet = s.quiet := by
  simp only [receptionError]; split
  all_goals simp
@[simp] theorem receptionError_loader (s : State) : (receptionError s).loader = s.loader := by
  simp only [receptionError]; split
  all_goals simp
@[simp] theorem receptionError_resetting (s : State) : (receptionError s).resetting = s.resetting := by
  simp only [receptionError]; split
  all_goals simp
@[simp] theorem receptionError_stamp (s : State) : (receptionError s).stamp = s.stamp := by
  simp only [receptionError]; split
  all_goals simp
@[simp] theorem receptionError_pending (s : State) : (receptionError s).pending = s.pending := by
  simp only [receptionError]; split
  all_goals simp

/-! ## `receive` -/

@[simp] theorem receive_windows (r : Reception) (s : State) : (receive r s).windows = s.windows := by
  cases r <;> simp [receive]
@[simp] theorem receive_routes (r : Reception) (s : State) : (receive r s).routes = s.routes := by
  cases r <;> simp [receive]
@[simp] theorem receive_tx (r : Reception) (s : State) : (receive r s).tx = s.tx := by
  cases r <;> simp [receive]
@[simp] theorem receive_quiet (r : Reception) (s : State) : (receive r s).quiet = s.quiet := by
  cases r <;> simp [receive]
@[simp] theorem receive_loader (r : Reception) (s : State) : (receive r s).loader = s.loader := by
  cases r <;> simp [receive]
@[simp] theorem receive_resetting (r : Reception) (s : State) : (receive r s).resetting = s.resetting := by
  cases r <;> simp [receive]
@[simp] theorem receive_stamp (r : Reception) (s : State) : (receive r s).stamp = s.stamp := by
  cases r <;> simp [receive]
@[simp] theorem receive_pending (r : Reception) (s : State) : (receive r s).pending = s.pending := by
  cases r <;> simp [receive]

/-! ## `beginAttempt` -/

@[simp] theorem beginAttempt_windows (c : Candidate) (s : State) : (beginAttempt c s).windows = s.windows := by
  simp only [beginAttempt]; split
  all_goals simp
@[simp] theorem beginAttempt_routes (c : Candidate) (s : State) : (beginAttempt c s).routes = s.routes := by
  simp only [beginAttempt]; split
  all_goals simp
@[simp] theorem beginAttempt_quiet (c : Candidate) (s : State) : (beginAttempt c s).quiet = s.quiet := by
  simp only [beginAttempt]; split
  all_goals simp
@[simp] theorem beginAttempt_loader (c : Candidate) (s : State) : (beginAttempt c s).loader = s.loader := by
  simp only [beginAttempt]; split
  all_goals simp
@[simp] theorem beginAttempt_resetting (c : Candidate) (s : State) : (beginAttempt c s).resetting = s.resetting := by
  simp only [beginAttempt]; split
  all_goals simp
@[simp] theorem beginAttempt_stamp (c : Candidate) (s : State) : (beginAttempt c s).stamp = s.stamp := by
  simp only [beginAttempt]; split
  all_goals simp
@[simp] theorem beginAttempt_pending (c : Candidate) (s : State) : (beginAttempt c s).pending = s.pending := by
  simp only [beginAttempt]; split
  all_goals simp

/-! ## `endSent` -/

@[simp] theorem endSent_windows (r : InFlight) (s : State) : (endSent r s).windows = s.windows := by simp [endSent]
@[simp] theorem endSent_routes (r : InFlight) (s : State) : (endSent r s).routes = s.routes := by simp [endSent]
@[simp] theorem endSent_quiet (r : InFlight) (s : State) : (endSent r s).quiet = s.quiet := by simp [endSent]
@[simp] theorem endSent_loader (r : InFlight) (s : State) : (endSent r s).loader = s.loader := by simp [endSent]
@[simp] theorem endSent_resetting (r : InFlight) (s : State) : (endSent r s).resetting = s.resetting := by simp [endSent]
@[simp] theorem endSent_stamp (r : InFlight) (s : State) : (endSent r s).stamp = s.stamp := by simp [endSent]
@[simp] theorem endSent_pending (r : InFlight) (s : State) : (endSent r s).pending = s.pending := by simp [endSent]

/-! ## `endLost` -/

@[simp] theorem endLost_ports (s : State) : (endLost s).ports = s.ports := rfl
@[simp] theorem endLost_windows (s : State) : (endLost s).windows = s.windows := rfl
@[simp] theorem endLost_routes (s : State) : (endLost s).routes = s.routes := rfl
@[simp] theorem endLost_rx (s : State) : (endLost s).rx = s.rx := rfl
@[simp] theorem endLost_tx (s : State) : (endLost s).tx = s.tx := rfl
@[simp] theorem endLost_slots (s : State) : (endLost s).slots = s.slots := rfl
@[simp] theorem endLost_quiet (s : State) : (endLost s).quiet = s.quiet := rfl
@[simp] theorem endLost_loader (s : State) : (endLost s).loader = s.loader := rfl
@[simp] theorem endLost_resetting (s : State) : (endLost s).resetting = s.resetting := rfl
@[simp] theorem endLost_stamp (s : State) : (endLost s).stamp = s.stamp := rfl
@[simp] theorem endLost_pending (s : State) : (endLost s).pending = s.pending := rfl

/-! ## `endError` -/

@[simp] theorem endError_windows (r : InFlight) (s : State) : (endError r s).windows = s.windows := by simp [endError]
@[simp] theorem endError_routes (r : InFlight) (s : State) : (endError r s).routes = s.routes := by simp [endError]
@[simp] theorem endError_rx (r : InFlight) (s : State) : (endError r s).rx = s.rx := by simp [endError]
@[simp] theorem endError_quiet (r : InFlight) (s : State) : (endError r s).quiet = s.quiet := by simp [endError]
@[simp] theorem endError_loader (r : InFlight) (s : State) : (endError r s).loader = s.loader := by simp [endError]
@[simp] theorem endError_resetting (r : InFlight) (s : State) : (endError r s).resetting = s.resetting := by simp [endError]
@[simp] theorem endError_stamp (r : InFlight) (s : State) : (endError r s).stamp = s.stamp := by simp [endError]
@[simp] theorem endError_pending (r : InFlight) (s : State) : (endError r s).pending = s.pending := by simp [endError]

/-! ## `resetStart` -/

@[simp] theorem resetStart_ports (kind : ResetKind) (s : State) : (resetStart kind s).ports = s.ports := rfl
@[simp] theorem resetStart_windows (kind : ResetKind) (s : State) : (resetStart kind s).windows = s.windows := rfl
@[simp] theorem resetStart_routes (kind : ResetKind) (s : State) : (resetStart kind s).routes = s.routes := rfl
@[simp] theorem resetStart_rx (kind : ResetKind) (s : State) : (resetStart kind s).rx = s.rx := rfl
@[simp] theorem resetStart_tx (kind : ResetKind) (s : State) : (resetStart kind s).tx = s.tx := rfl
@[simp] theorem resetStart_slots (kind : ResetKind) (s : State) : (resetStart kind s).slots = s.slots := rfl
@[simp] theorem resetStart_detector (kind : ResetKind) (s : State) : (resetStart kind s).detector = s.detector := rfl
@[simp] theorem resetStart_quiet (kind : ResetKind) (s : State) : (resetStart kind s).quiet = s.quiet := rfl
@[simp] theorem resetStart_stamp (kind : ResetKind) (s : State) : (resetStart kind s).stamp = s.stamp := rfl
@[simp] theorem resetStart_freeIndex (kind : ResetKind) (s : State) : (resetStart kind s).freeIndex = s.freeIndex := rfl
@[simp] theorem resetStart_nextCandidacy (kind : ResetKind) (s : State) : (resetStart kind s).nextCandidacy = s.nextCandidacy := rfl
@[simp] theorem resetStart_pending (kind : ResetKind) (s : State) : (resetStart kind s).pending = s.pending := rfl

end Sys2Proof.Machine

/-! PROOF. The windows and the route table at every step (02, R26; 03, R35, R36). -/

namespace Sys2Proof.Machine

/-! ## What the loaded defaults of a port may be -/

/-- A port has eight windows, each with its base and map inside its mask (R26). -/
def windowsOk (ws : List Window) : Prop := ws.length = Config.windowCount ∧ ∀ w ∈ ws, w.inMask = true

theorem WindowsSafe_iff (s : State) :
    WindowsSafe s ↔ ∀ p, windowsOk (s.windows.get p) ∧ windowsOk (s.unit p).defaults.windows := Iff.rfl

theorem windowsOk_set {ws : List Window} (h : windowsOk ws) (n : Nat) {w : Window} (inMask : w.inMask = true) :
    windowsOk (ws.set n w) := by
  refine ⟨by rw [List.length_set, h.1], fun x mem => ?_⟩
  obtain old | rfl := List.mem_or_eq_of_mem_set mem
  · exact h.2 x old
  · exact inMask

theorem windowsOk_defaultWindows : windowsOk defaultWindows := by
  refine ⟨rfl, ?_⟩
  decide

/-- The windows that an image gives are as many as were asked for, each inside its mask (R178). -/
theorem windowsAt_ok {image : List Byte} {k count : Nat} {ws : List Window} (h : windowsAt image k count = some ws) :
    ws.length = count ∧ ∀ w ∈ ws, w.inMask = true := by
  induction count generalizing k ws with
  | zero =>
    obtain rfl : [] = ws := Option.some.inj h
    exact ⟨rfl, by simp⟩
  | succ count ih =>
    simp only [windowsAt] at h
    split at h
    · next w more _ read =>
      split at h
      · next inMask =>
        obtain rfl := Option.some.inj h
        obtain ⟨length, inside⟩ := ih read
        exact ⟨by simp [length], List.forall_mem_cons.2 ⟨inMask, inside⟩⟩
      · simp at h
    · simp at h

/-- The values of a port section are in their ranges (R178). -/
theorem portSectionAt_ok {image : List Byte} {k : Nat} {x : PortSection} (h : portSectionAt image k = some x) :
    windowsOk x.windows ∧ poolSettingsOk x.reserve x.limit := by
  simp only [portSectionAt] at h
  split at h
  · next windows =>
    split at h
    · next inRange =>
      obtain rfl := Option.some.inj h
      exact ⟨windowsAt_ok windows, inRange⟩
    · simp at h
  · simp at h

theorem portSections_ok {image : List Byte} {xs : Quad PortSection} (h : portSections image = some xs) (p : Port) :
    windowsOk (xs.get p).windows ∧ poolSettingsOk (xs.get p).reserve (xs.get p).limit := by
  simp only [portSections] at h
  split at h
  · next a b c d ha hb hc hd =>
    obtain rfl := Option.some.inj h
    cases p with
    | a => exact portSectionAt_ok ha
    | b => exact portSectionAt_ok hb
    | c => exact portSectionAt_ok hc
    | d => exact portSectionAt_ok hd
  · simp at h

/-- The port sections of an image that passes are in their ranges (R178). -/
theorem readImage_sections {image : List Byte} {i : Image} (h : readImage image = some i) (p : Port) :
    windowsOk (i.sections.get p).windows ∧ poolSettingsOk (i.sections.get p).reserve (i.sections.get p).limit := by
  simp only [readImage] at h
  split at h
  · split at h
    · next read =>
      split at h
      · obtain rfl := Option.some.inj h
        exact portSections_ok read p
      · simp at h
    · simp at h
  · simp at h

/-! ## What an installation writes -/

theorem installPorts_unit (ds : Quad PortDefaults) (s : State) (p : Port) :
    (installPorts ds s).unit p =
      { s.unit p with presenceInterval := (ds.get p).presenceInterval, mask := (ds.get p).mask, defaults := ds.get p } := by
  cases p <;> rfl

@[simp] theorem installPorts_windows_get (ds : Quad PortDefaults) (s : State) (p : Port) :
    (installPorts ds s).windows.get p = (ds.get p).windows := by cases p <;> rfl

theorem installPorts_rx_get (ds : Quad PortDefaults) (s : State) (p : Port) :
    (installPorts ds s).rx.get p =
      ⟨(s.rx.get p).queue, (ds.get p).reserve, (ds.get p).limit, (ds.get p).policy⟩ := by cases p <;> rfl

theorem installBuiltIn_windows_get (fault : Bool) (s : State) (p : Port) :
    (installBuiltIn fault s).windows.get p = defaultWindows := by cases p <;> rfl

theorem installBuiltIn_unit (fault : Bool) (s : State) (p : Port) :
    (installBuiltIn fault s).unit p =
      { s.unit p with presenceInterval := 0, mask := 0xFFFF#16, defaults := PortDefaults.builtIn } := by cases p <;> rfl

theorem installBuiltIn_rx_get (fault : Bool) (s : State) (p : Port) :
    (installBuiltIn fault s).rx.get p = ⟨(s.rx.get p).queue, 16, 64, .dropNewest⟩ := by cases p <;> rfl

/-- The defaults that an image gives the four ports (R179). -/
def Image.defaults (i : Image) : Quad PortDefaults := i.sections.mapPort (fun _ x => x.defaults)

@[simp] theorem Image.defaults_get (i : Image) (p : Port) : i.defaults.get p = (i.sections.get p).defaults := by
  simp [Image.defaults]

/-- The state of an image installed, before the line starts. -/
def Image.installed (i : Image) (s : State) : State :=
  becomeReady false
    { installPorts i.defaults s with
      line := s.line.install i.rateMode i.rate i.silenceTime i.mode, quiet := { s.quiet with selection := i.quiet } }

theorem installImage_eq (i : Image) (s : State) :
    installImage i s = if i.lineOn then startLine (i.installed s) else i.installed s := rfl

/-- The line's start changes no more than the line unit and the flags. -/
theorem installImage_windows (i : Image) (s : State) : (installImage i s).windows = (i.installed s).windows := by
  rw [installImage_eq]; split <;> simp

theorem installImage_rx (i : Image) (s : State) : (installImage i s).rx = (i.installed s).rx := by
  rw [installImage_eq]; split <;> simp

theorem installImage_stirs (i : Image) (s : State) : Stirs (i.installed s) (installImage i s) := by
  rw [installImage_eq]
  split
  · exact startLine_stirs _
  · exact .refl _

theorem Image.installed_unit (i : Image) (s : State) (p : Port) :
    (i.installed s).unit p =
      { s.unit p with
        presenceInterval := (i.sections.get p).presenceInterval, mask := (i.sections.get p).mask
        defaults := (i.sections.get p).defaults } := by
  have unit := installPorts_unit i.defaults s p
  rw [Image.defaults_get] at unit
  exact unit

theorem Image.installed_windows (i : Image) (s : State) (p : Port) :
    (i.installed s).windows.get p = (i.sections.get p).windows := by
  have windows := installPorts_windows_get i.defaults s p
  rw [Image.defaults_get] at windows
  exact windows

theorem Image.installed_rx (i : Image) (s : State) (p : Port) :
    (i.installed s).rx.get p = ⟨(s.rx.get p).queue, (i.sections.get p).reserve, (i.sections.get p).limit,
      (i.sections.get p).policy⟩ := by
  have rx := installPorts_rx_get i.defaults s p
  rw [Image.defaults_get] at rx
  exact rx

/-! ## The end of a device reset -/

@[simp] theorem resetValues_unit (kind : ResetKind) (pins : PinsAtEnd) (s : State) (p : Port) :
    (resetValues kind pins s).unit p =
      { PortUnit.atReset (resetCause kind) with staleSelect := decide (p ∈ pins.selected) } := by cases p <;> rfl

/-- The loader after the load decision on its sampled straps (R177). -/
def Loader.decided (straps : Straps) : Loader :=
  if straps.loaden then
    ⟨.loading, false, some Config.loadLimit, straps, imageTransfer (Loader.busAddress ⟨.ready, false, none, straps, []⟩)⟩
  else ⟨.ready, false, none, straps, []⟩

/-- Both outcomes of the load decision leave the reset values, which are the built-in defaults, and differ in the loader
alone (11, R180; while LOADING, log 12). -/
theorem loadDecision_resetValues (kind : ResetKind) (pins : PinsAtEnd) (s : State) :
    loadDecision (resetValues kind pins s) =
      { resetValues kind pins s with loader := Loader.decided pins.straps } := by
  obtain ⟨⟨loaden, adr1, adr0⟩, selected⟩ := pins
  cases loaden <;> rfl

/-! ## The windows -/

theorem WindowsSafe.congr {s t : State} (h : WindowsSafe s) (windows : t.windows = s.windows)
    (defaults : ∀ p, (t.unit p).defaults = (s.unit p).defaults) : WindowsSafe t := by
  rw [WindowsSafe_iff] at h ⊢
  simpa only [windows, defaults] using h

theorem installBuiltIn_windowsSafe (fault : Bool) (s : State) : WindowsSafe (installBuiltIn fault s) := fun p => by
  rw [installBuiltIn_windows_get, installBuiltIn_unit]
  exact ⟨windowsOk_defaultWindows, windowsOk_defaultWindows⟩

theorem resetEnd_windowsSafe (kind : ResetKind) (pins : PinsAtEnd) (s : State) :
    WindowsSafe (loadDecision (resetValues kind pins s)) := by
  have values : WindowsSafe (resetValues kind pins s) := fun p => by
    rw [resetValues_unit, show (resetValues kind pins s).windows.get p = defaultWindows from Quad.get_all p _]
    exact ⟨windowsOk_defaultWindows, windowsOk_defaultWindows⟩
  rw [loadDecision_resetValues]
  exact values

theorem restoreDefaults_windows (p : Port) (s : State) :
    (restoreDefaults p s).windows = s.windows.set p (s.unit p).defaults.windows := rfl

/-- A PORT_RESET puts the port's loaded default windows in force (02, R34). -/
theorem restoreDefaults_windowsSafe {s : State} (h : WindowsSafe s) (p : Port) : WindowsSafe (restoreDefaults p s) := by
  intro q
  rw [restoreDefaults_windows, restoreDefaults_defaults]
  refine ⟨?_, (h q).2⟩
  rw [Quad.get_set]
  split
  · exact (h p).2
  · exact (h q).1

theorem windowsSafe_kept : Kept WindowsSafe where
  exchange h exchanged := h.congr rfl exchanged.setUnit_defaults
  block := by
    intro s t p h _ done
    have defaults := done.defaults
    cases done with
    | setWindow n w inMask =>
      refine fun q => ⟨?_, (h q).2⟩
      rw [Quad.get_set]
      split
      · exact windowsOk_set (h p).1 n inMask
      · exact (h q).1
    | resetDetached =>
      refine restoreDefaults_windowsSafe (h.congr ?_ ?_) p
      · rfl
      · exact State.modUnit_defaults (by intro; rfl) s
    | resetAttached =>
      exact restoreDefaults_windowsSafe (h.congr (by simp) (teardown_unit_defaults p · _ s)) p
    | _ => exact h.congr (by simp) defaults
  event := by
    intro s t h done
    cases done with
    | load image i _ _ read =>
      intro p
      rw [installImage_windows, (installImage_stirs i s).defaults, Image.installed_windows, Image.installed_unit]
      exact ⟨(readImage_sections read p).1, (readImage_sections read p).1⟩
    | loadFails => exact installBuiltIn_windowsSafe _ _
    | resetEnd kind pins => exact resetEnd_windowsSafe kind pins s
    | receive r => exact h.congr (by simp) (receive_stirs r s).defaults
    | begin c => exact h.congr (by simp) (beginAttempt_stirs c s).defaults
    | sent r => exact h.congr (by simp) (endSent_stirs r s).defaults
    | failed r => exact h.congr (by simp) (endError_stirs r s).defaults
    | silence => exact h.congr (by simp) (silenceExpiry_stirs s).defaults
    | detach p cause => exact h.congr (by simp) (teardown_unit_defaults p · cause s)
    | wakeTimer p =>
      refine h.congr (by simp) fun q => ((present_stirs _ _ _ _).defaults q).trans ?_
      exact State.modUnit_defaults (by intro; rfl) s q
    | slot n => exact h.congr (by simp) (expire_effect n s).units.stirs.defaults
    | latch => exact h.congr (by simp) (setLatch_stirs s).defaults
    | tick => exact h.congr rfl fun q => by cases q <;> rfl
    | _ => exact h.congr rfl fun _ => rfl

/-! ## The route table -/

theorem RoutesSafe.congr {s t : State} (h : RoutesSafe s) (routes : t.routes = s.routes) : RoutesSafe t := by
  simpa only [RoutesSafe, State.routeCount, routes] using h

/-- The entry belongs to port `p`. -/
def ownedBy (p : Port) (e : Option RouteEntry) : Bool :=
  match e with
  | some x => x.owner == p
  | none => false

theorem State.routeCount_eq (s : State) (p : Port) : s.routeCount p = s.routes.countP (ownedBy p) := rfl

/-- Putting an entry in a place takes away what stood there and adds what is put. -/
theorem countP_set_le {α : Type} (f : α → Bool) (xs : List α) (n : Nat) (x : α) :
    (xs.set n x).countP f ≤ xs.countP f + if f x then 1 else 0 := by
  induction xs generalizing n with
  | nil => simp
  | cons y xs ih =>
    cases n with
    | zero => simp only [List.set_cons_zero, List.countP_cons]; omega
    | succ n =>
      simp only [List.set_cons_succ, List.countP_cons]
      have := ih n
      omega

theorem RoutesSafe.add {s : State} (h : RoutesSafe s) {n : Nat} {e : RouteEntry} (sound : e.Sound)
    (share : s.routeCount e.owner < Config.routesPerPort) :
    RoutesSafe { s with routes := s.routes.set n (some e) } := by
  obtain ⟨length, shares, sounds⟩ := h
  refine ⟨by rw [List.length_set, length], fun q => ?_, fun x mem => ?_⟩
  · have count : (s.routes.set n (some e)).countP (ownedBy q) ≤ _ := countP_set_le (ownedBy q) s.routes n (some e)
    rw [State.routeCount_eq]
    refine count.trans ?_
    by_cases own : e.owner = q
    · subst own
      rw [if_pos (by simp [ownedBy])]
      exact share
    · rw [if_neg (by simp [ownedBy, own])]
      exact shares q
  · obtain old | same := List.mem_or_eq_of_mem_set mem
    · exact sounds x old
    · obtain rfl := Option.some.inj same
      exact sound

theorem RoutesSafe.remove {s : State} (h : RoutesSafe s) (n : Nat) :
    RoutesSafe { s with routes := s.routes.set n none } := by
  obtain ⟨length, shares, sounds⟩ := h
  refine ⟨by rw [List.length_set, length], fun q => ?_, fun x mem => ?_⟩
  · exact (countP_set_le (ownedBy q) s.routes n none).trans (shares q)
  · obtain old | same := List.mem_or_eq_of_mem_set mem
    · exact sounds x old
    · simp at same

/-- The entries that a teardown of `p` leaves (R160 step 4). -/
def withoutOwner (p : Port) (e : Option RouteEntry) : Option RouteEntry :=
  match e with
  | some x => if x.owner = p then none else some x
  | none => none

theorem freeRoutes_routes (p : Port) (s : State) : (freeRoutes p s).routes = s.routes.map (withoutOwner p) := rfl

theorem withoutOwner_eq_some {p : Port} {e : Option RouteEntry} {x : RouteEntry} :
    withoutOwner p e = some x ↔ e = some x ∧ x.owner ≠ p := by
  cases e with
  | none => simp [withoutOwner]
  | some y =>
    simp only [withoutOwner, Option.some.injEq]
    split
    · next own => exact ⟨nofun, fun h => absurd (h.1 ▸ own) h.2⟩
    · next foreign => exact ⟨fun h => by obtain rfl := Option.some.inj h; exact ⟨rfl, foreign⟩, fun h => by rw [h.1]⟩

theorem ownedBy_withoutOwner {p q : Port} {e : Option RouteEntry} (h : ownedBy q (withoutOwner p e) = true) :
    ownedBy q e = true := by
  cases kept : withoutOwner p e with
  | none => simp [kept, ownedBy] at h
  | some x => rw [kept] at h; rw [(withoutOwner_eq_some.1 kept).1]; exact h

theorem RoutesSafe.freeRoutes {s : State} (h : RoutesSafe s) (p : Port) : RoutesSafe (freeRoutes p s) := by
  obtain ⟨length, shares, sounds⟩ := h
  refine ⟨by rw [freeRoutes_routes, List.length_map, length], fun q => ?_, fun x mem => ?_⟩
  · rw [State.routeCount_eq, freeRoutes_routes, List.countP_map]
    exact (List.countP_mono_left fun _ _ => ownedBy_withoutOwner).trans (shares q)
  · rw [freeRoutes_routes, List.mem_map] at mem
    obtain ⟨e, mem, kept⟩ := mem
    exact sounds x ((withoutOwner_eq_some.1 kept).1 ▸ mem)

@[simp] theorem forSlots_routes {f : Nat → State → State} (h : ∀ n t, (f n t).routes = t.routes) (s : State) :
    (forSlots f s).routes = s.routes :=
  forSlots_keeps (I := fun t => t.routes = s.routes) (fun n t ht => (h n t).trans ht) rfl

/-- A teardown frees the entries of its port and leaves the others (R160 step 4). -/
theorem teardown_routes (p : Port) (cause : DetachCause) (s : State) :
    (teardown p cause s).routes = (freeRoutes p s).routes := by
  rw [teardown_eq, State.modUnit_routes, released, forSlots_routes (by simp), forSlots_routes (by simp),
    freeRoutes_routes, freeRoutes_routes]
  simp [clearRx, clearTx]

theorem RoutesSafe.teardown {s : State} (h : RoutesSafe s) (p : Port) (cause : DetachCause) :
    RoutesSafe (teardown p cause s) := (h.freeRoutes p).congr (teardown_routes p cause s)

theorem routesSafe_atReset : RoutesSafe State.reset := by
  refine ⟨by simp [State.reset], fun p => ?_, fun e mem => ?_⟩
  · simp [State.routeCount_eq, State.reset, List.countP_replicate, ownedBy]
  · simp [State.reset] at mem

theorem routesSafe_kept : Kept RoutesSafe where
  exchange h _ := h.congr rfl
  block := by
    intro s t p h _ done
    cases done with
    | routeAdd n e _ own sound share => exact h.add sound (own ▸ share)
    | routeRemove n => exact h.remove n
    | detach => exact h.teardown p _
    | resetAttached => exact (h.teardown p .reset).congr (by simp)
    | _ => exact h.congr (by simp)
  event := by
    intro s t h done
    cases done with
    | detach p cause => exact h.teardown p cause
    | resetEnd kind pins =>
      rw [loadDecision_resetValues]
      exact routesSafe_atReset.congr rfl
    | _ => exact h.congr (by simp)

/-- Settles O56: SET_WINDOW, PORT_RESET and the installations write windows inside their masks, and ROUTE_ADD a sound
entry within its port's share; everything else leaves both tables or frees entries. -/
theorem tablesStaySafe : Obligations.TablesStaySafe := ⟨windowsSafe_kept.step, routesSafe_kept.step⟩

end Sys2Proof.Machine

/-! PROOF. What each operation does to the line unit, and the line unit's invariants at every step (01; 10, R172; 11, R177). -/

namespace Sys2Proof.Machine

/-! ## A line unit left alone -/

/-- The line unit is as before but for the lease, and for the record in flight, which stays there though its source may go. -/
structure LineCalm (u v : LineUnit) : Prop where
  line : v = { u with lease := v.lease, inFlight := v.inFlight }
  flight : v.inFlight.isSome = u.inFlight.isSome

theorem LineCalm.refl (u : LineUnit) : LineCalm u u := ⟨rfl, rfl⟩

theorem LineCalm.of_eq {u v : LineUnit} (h : v = u) : LineCalm u v := h ▸ .refl u

theorem LineCalm.trans {u v w : LineUnit} (h : LineCalm u v) (k : LineCalm v w) : LineCalm u w :=
  ⟨by rw [k.line, h.line], k.flight.trans h.flight⟩

theorem SlotEffect.lineCalm {s t : State} (h : SlotEffect s t) : LineCalm s.line t.line :=
  ⟨by have lease : t.line.lease = s.line.lease := by rw [h.line]
      rw [lease]; exact h.line, h.flight⟩

theorem releaseLease_lineCalm (p : Port) (s : State) : LineCalm s.line (releaseLease p s).line := by
  unfold releaseLease
  split
  · exact ⟨rfl, rfl⟩
  · exact .refl _

theorem released_lineCalm (p : Port) (s : State) : LineCalm s.line (released p s).line := by
  have slots := (forSlots_effect (disposeSlot_effect p) (freeRoutes p (clearRx p (clearTx p (releaseLease p s))))).trans
    (forSlots_effect (dropStandIn_effect p) _)
  exact ((releaseLease_lineCalm p s).trans (cut_effect (.queueHead p) (releaseLease p s)).lineCalm).trans slots.lineCalm

theorem teardown_lineCalm (p : Port) (cause : DetachCause) (s : State) : LineCalm s.line (teardown p cause s).line := by
  rw [teardown_eq, State.modUnit_line]
  exact released_lineCalm p s

/-! ## The line unit under the shared operations -/

/-- A publication that replaces no due entry cuts nothing. -/
theorem publish_line_of_free {n : Nat} {s : State} (free : ∀ sl, s.slot n = some sl → sl.due = none) (payload : List Byte) :
    (publish n payload s).line = s.line := by
  simp only [publish]
  split
  · rfl
  · next sl live => rw [free sl live]; rfl

@[simp] theorem answerQuery_line (l : Label) (s : State) : (answerQuery l s).line = s.line := by
  simp only [answerQuery]
  split
  · rfl
  · split
    · rfl
    · next sl live =>
      split
      · next answers =>
        refine publish_line_of_free (fun x found => ?_) _
        obtain rfl := Option.some.inj (live.symm.trans found)
        simpa using (Bool.and_eq_true_iff.1 answers).2
      · rfl

@[simp] theorem offer_line (o : Offer) (answer : Bool) (s : State) : (offer o answer s).line = s.line := by
  simp only [offer]
  split <;> simp

@[simp] theorem startLine_line (s : State) : (startLine s).line = s.line.started := by simp [startLine]

@[simp] theorem enterDegraded_line (s : State) :
    (enterDegraded s).line = { s.line with state := .degraded, silenceTimer := none, silentFlag := false } := rfl

theorem checkDegraded_line (s : State) :
    (checkDegraded s).line =
      if s.line.state = .synced ∧ s.line.errorCount = Config.errorLimit then
        { s.line with state := .degraded, silenceTimer := none, silentFlag := false }
      else s.line := by
  unfold checkDegraded; split <;> rfl

/-- With a record in flight an abort ends the attempt; without one it does nothing. -/
theorem abortAttempt_line (s : State) :
    (abortAttempt s).line = if s.line.inFlight.isSome then s.line.endAttempt.restartSilence else s.line := by
  unfold abortAttempt
  split
  · next r flies => simp [flies]
  · next none_ => simp [none_]

theorem turnLineOff_line {s : State} (on : s.line.state ≠ .off) :
    (turnLineOff s).line = { (abortAttempt s).line.abandonReception with
      state := .off, errorCount := 0, cleanCount := 0, dwellTimer := none, silenceTimer := none, silentFlag := false } := by
  rw [turnLineOff, if_neg on]; rfl

theorem turnLineOff_of_off {s : State} (off : s.line.state = .off) : turnLineOff s = s := if_pos off

@[simp] theorem setLatch_line (s : State) : (setLatch s).line = (abortAttempt s).line := rfl

@[simp] theorem installBuiltIn_line (fault : Bool) (s : State) :
    (installBuiltIn fault s).line = s.line.install .auto .k400 1000 .normal := rfl

@[simp] theorem Image.installed_line (i : Image) (s : State) :
    (i.installed s).line = s.line.install i.rateMode i.rate i.silenceTime i.mode := rfl

theorem installImage_line (i : Image) (s : State) :
    (installImage i s).line = if i.lineOn then (i.installed s).line.started else (i.installed s).line := by
  rw [installImage_eq]; split <;> simp

@[simp] theorem endSent_line (r : InFlight) (s : State) :
    (endSent r s).line = (s.line.endAttempt.subError).restartSilence := by simp [endSent]

@[simp] theorem endLost_line (s : State) : (endLost s).line = s.line.endAttempt.restartSilence := rfl

/-- The four commands of the line unit apart, a block leaves the line unit but for the lease and a cut. -/
theorem Block.line {p : Port} {s t : State} (h : Block p s t) :
    LineCalm s.line t.line ∨ (∃ c, t = s.modLine (fun u => u.set c)) ∨ (s.line.state = .off ∧ t = startLine s) ∨
      t = turnLineOff s ∨ (s.line.state ≠ .off ∧ t = startLine (abortAttempt s)) := by
  cases h with
  | lineSet c => exact .inr (.inl ⟨c, rfl⟩)
  | lineOn off => exact .inr (.inr (.inl ⟨off, rfl⟩))
  | lineOff => exact .inr (.inr (.inr (.inl rfl)))
  | lineResync on => exact .inr (.inr (.inr (.inr ⟨on, rfl⟩)))
  | detach => exact .inl (teardown_lineCalm p _ s)
  | resetAttached => exact .inl ((teardown_lineCalm p .reset s).trans (.of_eq (by simp)))
  | doze w period =>
    refine .inl ((releaseLease_lineCalm p s).trans (.of_eq ?_))
    simp only [takeDoze]
    split <;> split <;> rfl
  | leaseTake => exact .inl ⟨rfl, rfl⟩
  | leaseRelease => exact .inl (releaseLease_lineCalm p s)
  | slotStop n => exact .inl (stopNow_effect n s).lineCalm
  | slotRemove n => exact .inl (removeSlot_effect n s).lineCalm
  | _ => exact .inl (.of_eq (by simp))

/-! ## State, counter, count and timers (R5 to R10) -/

/-- `LineSafe` of the line unit, up to a counter that has reached the limit in SYNCED. -/
def LineUnit.NearlyAgrees (u : LineUnit) : Prop :=
  (match u.state with
    | .off | .search => u.errorCount = 0
    | .synced => u.errorCount ≤ Config.errorLimit
    | .degraded => u.errorCount = Config.errorLimit) ∧
  u.cleanCount ≤ 1 ∧ (u.state ≠ .search → u.cleanCount = 0) ∧
  (u.dwellTimer.isSome = true ↔ u.state = .search) ∧
  (u.state ≠ .synced → u.silenceTimer = none ∧ u.silentFlag = false) ∧
  (u.state = .synced → u.silentFlag = u.silenceTimer.isNone)

/-- The line unit agrees with its state: what `LineSafe` says of it. -/
def LineUnit.Agrees (u : LineUnit) : Prop := u.NearlyAgrees ∧ (u.state = .synced → u.errorCount ≠ Config.errorLimit)

theorem lineSafe_iff (s : State) : LineSafe s ↔ s.line.Agrees := by
  unfold LineSafe LineUnit.Agrees LineUnit.NearlyAgrees
  cases s.line.state with
  | synced => simp [Nat.lt_iff_le_and_ne]; tauto
  | off | search | degraded => simp

theorem LineUnit.NearlyAgrees.calm {u v : LineUnit} (h : u.NearlyAgrees) (calm : LineCalm u v) : v.NearlyAgrees := by
  rw [calm.line]; exact h

theorem LineUnit.Agrees.calm {u v : LineUnit} (h : u.Agrees) (calm : LineCalm u v) : v.Agrees := by
  rw [calm.line]; exact h

theorem LineUnit.agrees_started (u : LineUnit) : u.started.Agrees := by
  unfold LineUnit.started
  split <;> simp [LineUnit.Agrees, LineUnit.NearlyAgrees, Config.errorLimit]

theorem LineUnit.NearlyAgrees.restartSilence {u : LineUnit} (h : u.NearlyAgrees) : u.restartSilence.NearlyAgrees := by
  unfold LineUnit.restartSilence
  split
  · next synced =>
    obtain ⟨count, few, clean, dwell, -, -⟩ := h
    exact ⟨count, few, clean, dwell, fun other => absurd synced other, fun _ => rfl⟩
  · exact h

theorem LineUnit.Agrees.restartSilence {u : LineUnit} (h : u.Agrees) : u.restartSilence.Agrees := by
  refine ⟨h.1.restartSilence, ?_⟩
  unfold LineUnit.restartSilence
  split <;> exact h.2

theorem LineUnit.Agrees.endAttempt {u : LineUnit} (h : u.Agrees) : u.endAttempt.Agrees := h

theorem LineUnit.Agrees.subError {u : LineUnit} (h : u.Agrees) : u.subError.Agrees := by
  unfold LineUnit.subError
  split
  · next synced =>
    simp only [LineUnit.Agrees, LineUnit.NearlyAgrees, synced] at h ⊢
    simp only [Config.errorLimit] at h ⊢
    obtain ⟨⟨count, rest⟩, below⟩ := h
    exact ⟨⟨by omega, rest⟩, fun _ => by have := below trivial; omega⟩
  · exact h

theorem LineUnit.Agrees.addErrors {u : LineUnit} (h : u.Agrees) (n : Nat) : (u.addErrors n).NearlyAgrees := by
  unfold LineUnit.addErrors
  split
  · next synced =>
    obtain ⟨⟨-, rest⟩, -⟩ := h
    simp only [LineUnit.NearlyAgrees, synced] at rest ⊢
    exact ⟨Nat.min_le_left _ _, rest⟩
  · exact h.1

theorem LineUnit.Agrees.set {u : LineUnit} (h : u.Agrees) (c : LineSettings) : (u.set c).Agrees := by
  have silence : (({ u with rateMode := c.rateMode, configuredRate := c.rate } : LineUnit).setSilence
      c.silenceTime).Agrees := by
    unfold LineUnit.setSilence
    split
    · next restarts =>
      have runs : u.silenceTimer.isSome = true := restarts.2
      have synced : u.state = .synced := by
        by_contra other
        simp [(h.1.2.2.2.2.1 other).1] at runs
      obtain ⟨⟨count, few, clean, dwell, -, flag⟩, below⟩ := h
      refine ⟨⟨count, few, clean, dwell, fun other => absurd synced other, fun _ => ?_⟩, below⟩
      have clear : u.silentFlag = false := by
        rw [flag synced, ← Option.not_isSome, runs]; rfl
      exact clear
    · exact h
  unfold LineUnit.set LineUnit.setMode
  split <;> exact silence

/-- The line becomes DEGRADED where its counter has reached the limit (R9). -/
theorem LineUnit.NearlyAgrees.checkDegraded {s : State} (h : s.line.NearlyAgrees) : (checkDegraded s).line.Agrees := by
  rw [checkDegraded_line]
  split
  · next reached =>
    obtain ⟨synced, limit⟩ := reached
    obtain ⟨-, few, clean, dwell, -, -⟩ := h
    simp only [synced] at clean dwell
    exact ⟨⟨limit, few, fun _ => clean nofun, ⟨fun runs => (nomatch dwell.1 runs), nofun⟩, fun _ => ⟨rfl, rfl⟩, nofun⟩,
      nofun⟩
  · next below => exact ⟨h, fun synced limit => below ⟨synced, limit⟩⟩

theorem abortAttempt_agrees {s : State} (h : s.line.Agrees) : (abortAttempt s).line.Agrees := by
  rw [abortAttempt_line]
  split
  · exact h.endAttempt.restartSilence
  · exact h

theorem turnLineOff_agrees {s : State} (h : s.line.Agrees) : (turnLineOff s).line.Agrees := by
  by_cases off : s.line.state = .off
  · rw [turnLineOff_of_off off]; exact h
  · rw [turnLineOff_line off]
    simp [LineUnit.Agrees, LineUnit.NearlyAgrees]

theorem cleanReception_agrees {s : State} (h : s.line.Agrees) : (cleanReception s).line.Agrees := by
  unfold cleanReception
  split
  · exact h
  · exact h
  · next searching =>
    split
    · simp [LineUnit.synced, LineUnit.Agrees, LineUnit.NearlyAgrees, Config.errorLimit]
    · next first =>
      simp only [LineUnit.Agrees, LineUnit.NearlyAgrees, State.modLine_line, searching] at h ⊢
      obtain ⟨⟨count, -, -, -, silence, -⟩, -⟩ := h
      exact ⟨⟨count, by omega, nofun, ⟨fun _ => trivial, fun _ => rfl⟩, silence, nofun⟩, nofun⟩
  · exact h.restartSilence.subError

theorem receptionError_agrees {s : State} (h : s.line.Agrees) : (receptionError s).line.Agrees := by
  unfold receptionError
  split
  · exact h
  · exact h
  · next searching =>
    simp only [LineUnit.Agrees, LineUnit.NearlyAgrees, State.modLine_line, searching] at h ⊢
    obtain ⟨⟨count, -, -, dwell, silence, -⟩, -⟩ := h
    exact ⟨⟨count, by omega, nofun, dwell, silence, nofun⟩, nofun⟩
  · exact (h.restartSilence.addErrors 1).checkDegraded

theorem receive_agrees {s : State} (h : s.line.Agrees) (r : Reception) : (receive r s).line.Agrees := by
  cases r with
  | clean t => rw [receive, offer_line]; exact cleanReception_agrees h
  | codingError | formatError | checkError => exact receptionError_agrees h

theorem endError_agrees {s : State} (h : s.line.Agrees) (r : InFlight) : (endError r s).line.Agrees := by
  refine LineUnit.NearlyAgrees.checkDegraded ?_
  rw [reportError_line]
  exact h.endAttempt.restartSilence.addErrors 2

theorem dwellExpiry_agrees {s : State} (h : s.line.Agrees) (searching : s.line.state = .search) :
    (dwellExpiry s).line.Agrees := by
  simp only [LineUnit.Agrees, LineUnit.NearlyAgrees, dwellExpiry, State.modLine_line, LineUnit.abandonReception,
    searching] at h ⊢
  obtain ⟨⟨count, -, -, -, silence, -⟩, -⟩ := h
  exact ⟨⟨count, by omega, nofun, ⟨fun _ => trivial, fun _ => rfl⟩, silence, nofun⟩, nofun⟩

theorem silenceExpiry_agrees {s : State} (h : s.line.Agrees) (synced : s.line.state = .synced) :
    (silenceExpiry s).line.Agrees := by
  obtain ⟨⟨count, few, clean, dwell, -, -⟩, below⟩ := h
  exact ⟨⟨count, few, clean, dwell, fun other => absurd synced other, fun _ => rfl⟩, below⟩

@[simp] theorem tickTimer_isSome (t : Option Nat) : (tickTimer t).isSome = t.isSome := by cases t <;> rfl

@[simp] theorem tickTimer_isNone (t : Option Nat) : (tickTimer t).isNone = t.isNone := by cases t <;> rfl

@[simp] theorem tickTimer_eq_none (t : Option Nat) : tickTimer t = none ↔ t = none := by cases t <;> simp [tickTimer]

theorem advance_agrees {s : State} (h : s.line.Agrees) : (advance s).line.Agrees := by
  simpa [LineUnit.Agrees, LineUnit.NearlyAgrees, advance] using h

theorem installImage_agrees {s : State} (h : s.line.Agrees) (i : Image) : (installImage i s).line.Agrees := by
  rw [installImage_line]
  split
  · exact LineUnit.agrees_started _
  · exact h

theorem beginAttempt_agrees {s : State} (h : s.line.Agrees) (c : Candidate) : (beginAttempt c s).line.Agrees := by
  unfold beginAttempt
  split
  · simpa using h
  · exact h

theorem lineAgrees_kept : Kept (fun s => s.line.Agrees) where
  exchange h _ := h
  block := by
    intro s t p h _ done
    obtain calm | ⟨c, rfl⟩ | ⟨-, rfl⟩ | rfl | ⟨-, rfl⟩ := done.line
    · exact h.calm calm
    · exact h.set c
    · rw [startLine_line]; exact LineUnit.agrees_started _
    · exact turnLineOff_agrees h
    · rw [startLine_line]; exact LineUnit.agrees_started _
  event := by
    intro s t h done
    cases done with
    | draw | window | wakeTimer | trigger | pin => exact h
    | receive r => exact receive_agrees h r
    | begin c => exact beginAttempt_agrees h c
    | sent r => rw [endSent_line]; exact h.endAttempt.subError.restartSilence
    | lost => exact h.endAttempt.restartSilence
    | failed r => exact endError_agrees h r
    | dwell searching => exact dwellExpiry_agrees h searching
    | silence synced => exact silenceExpiry_agrees h synced
    | detach p cause => exact h.calm (teardown_lineCalm p cause s)
    | slot n => exact h.calm (expire_effect n s).lineCalm
    | latch => exact abortAttempt_agrees h
    | tick => exact advance_agrees h
    | load image i => exact installImage_agrees h i
    | loadFails => exact h
    | resetStart => exact h
    | resetEnd kind pins =>
      rw [loadDecision_resetValues]
      simp [resetValues, LineUnit.atReset, LineUnit.Agrees, LineUnit.NearlyAgrees]

end Sys2Proof.Machine

/-! PROOF. When the hub drives the line and the I2C bus, at every step (01, R13, R14, R25; 10, R172; 11, R176, R177). -/

namespace Sys2Proof.Machine

/-! ## Driving the line -/

theorem DriveSafe.congr {s t : State} (h : DriveSafe s) (line : LineCalm s.line t.line)
    (latch : t.quiet.latch = s.quiet.latch) (loader : t.loader.state = s.loader.state) : DriveSafe t := by
  obtain ⟨flight, pending, loads⟩ := h
  refine ⟨fun flies => ?_, fun m held => ?_, fun loading => ?_⟩
  · rw [latch, line.line]; exact flight (line.flight ▸ flies)
  · rw [line.line] at held
    rw [line.flight]; exact pending m held
  · rw [line.line]; exact loads (loader ▸ loading)

/-- With nothing in flight, no pending mode and no load under way nothing is asked. -/
theorem DriveSafe.of_idle {t : State} (idle : t.line.inFlight = none) (settled : t.line.pendingMode = none)
    (loads : t.loader.state = .loading → t.line.state = .off) : DriveSafe t :=
  ⟨fun flies => by simp [idle] at flies, fun m held => by simp [settled] at held, loads⟩

/-- Outside SYNCED nothing is in flight. -/
theorem DriveSafe.idle {s : State} (h : DriveSafe s) (other : s.line.state ≠ .synced) : s.line.inFlight = none := by
  by_contra flies
  exact other (h.1 (Option.isSome_iff_ne_none.2 flies)).1

theorem DriveSafe.settled {s : State} (h : DriveSafe s) (idle : s.line.inFlight = none) : s.line.pendingMode = none := by
  refine Option.eq_none_iff_forall_ne_some.2 fun m held => ?_
  have flies := (h.2.1 m held).1
  simp [idle] at flies

/-- The line being on, the loader is not LOADING. -/
theorem DriveSafe.not_loading {s : State} (h : DriveSafe s) (on : s.line.state ≠ .off) : s.loader.state ≠ .loading :=
  fun loading => on (h.2.2 loading)

@[simp] theorem LineUnit.restartSilence_inFlight (u : LineUnit) : u.restartSilence.inFlight = u.inFlight := by
  unfold LineUnit.restartSilence; split <;> rfl
@[simp] theorem LineUnit.restartSilence_pendingMode (u : LineUnit) : u.restartSilence.pendingMode = u.pendingMode := by
  unfold LineUnit.restartSilence; split <;> rfl
@[simp] theorem LineUnit.restartSilence_state (u : LineUnit) : u.restartSilence.state = u.state := by
  unfold LineUnit.restartSilence; split <;> rfl
@[simp] theorem LineUnit.subError_inFlight (u : LineUnit) : u.subError.inFlight = u.inFlight := by
  unfold LineUnit.subError; split <;> rfl
@[simp] theorem LineUnit.subError_pendingMode (u : LineUnit) : u.subError.pendingMode = u.pendingMode := by
  unfold LineUnit.subError; split <;> rfl
@[simp] theorem LineUnit.subError_state (u : LineUnit) : u.subError.state = u.state := by
  unfold LineUnit.subError; split <;> rfl
@[simp] theorem LineUnit.addErrors_inFlight (u : LineUnit) (n : Nat) : (u.addErrors n).inFlight = u.inFlight := by
  unfold LineUnit.addErrors; split <;> rfl
@[simp] theorem LineUnit.addErrors_pendingMode (u : LineUnit) (n : Nat) :
    (u.addErrors n).pendingMode = u.pendingMode := by
  unfold LineUnit.addErrors; split <;> rfl
@[simp] theorem LineUnit.started_inFlight (u : LineUnit) : u.started.inFlight = u.inFlight := by
  unfold LineUnit.started; split <;> rfl
@[simp] theorem LineUnit.started_pendingMode (u : LineUnit) : u.started.pendingMode = u.pendingMode := by
  unfold LineUnit.started; split <;> rfl
@[simp] theorem LineUnit.endAttempt_inFlight (u : LineUnit) : u.endAttempt.inFlight = none := rfl
@[simp] theorem LineUnit.endAttempt_pendingMode (u : LineUnit) : u.endAttempt.pendingMode = none := rfl
@[simp] theorem LineUnit.endAttempt_state (u : LineUnit) : u.endAttempt.state = u.state := rfl

@[simp] theorem checkDegraded_inFlight (s : State) : (checkDegraded s).line.inFlight = s.line.inFlight := by
  rw [checkDegraded_line]; split <;> rfl
@[simp] theorem checkDegraded_pendingMode (s : State) : (checkDegraded s).line.pendingMode = s.line.pendingMode := by
  rw [checkDegraded_line]; split <;> rfl

@[simp] theorem abortAttempt_inFlight (s : State) : (abortAttempt s).line.inFlight = none := by
  rw [abortAttempt_line]
  split
  · simp
  · next idle => simpa using idle

theorem abortAttempt_pendingMode {s : State} (h : DriveSafe s) : (abortAttempt s).line.pendingMode = none := by
  rw [abortAttempt_line]
  split
  · simp
  · next idle => exact h.settled (by simpa using idle)

theorem cleanReception_idle {s : State} (idle : s.line.inFlight = none) : (cleanReception s).line.inFlight = none := by
  unfold cleanReception
  repeat' split
  all_goals simpa [LineUnit.synced] using idle

theorem cleanReception_settled {s : State} (settled : s.line.pendingMode = none) :
    (cleanReception s).line.pendingMode = none := by
  unfold cleanReception
  repeat' split
  all_goals simpa [LineUnit.synced] using settled

theorem receptionError_idle {s : State} (idle : s.line.inFlight = none) : (receptionError s).line.inFlight = none := by
  unfold receptionError
  split
  all_goals simpa using idle

theorem receptionError_settled {s : State} (settled : s.line.pendingMode = none) :
    (receptionError s).line.pendingMode = none := by
  unfold receptionError
  split
  all_goals simpa using settled

theorem receive_idle {s : State} (idle : s.line.inFlight = none) (r : Reception) :
    (receive r s).line.inFlight = none := by
  cases r with
  | clean t => rw [receive, offer_line]; exact cleanReception_idle idle
  | codingError | formatError | checkError => exact receptionError_idle idle

theorem receive_settled {s : State} (settled : s.line.pendingMode = none) (r : Reception) :
    (receive r s).line.pendingMode = none := by
  cases r with
  | clean t => rw [receive, offer_line]; exact cleanReception_settled settled
  | codingError | formatError | checkError => exact receptionError_settled settled

/-- An attempt begins in SYNCED, and in NORMAL or LOOPBACK, with the latch clear and nothing in flight (R14). -/
theorem State.mayTransmit_iff (s : State) :
    s.mayTransmit = true ↔
      s.line.state = .synced ∧ s.line.mode ≠ .listenOnly ∧ s.quiet.latch = false ∧ s.line.inFlight = none := by
  simp [State.mayTransmit, and_assoc]

theorem DriveSafe.begin {s : State} (h : DriveSafe s) (may : s.mayTransmit = true) (c : Candidate) :
    DriveSafe (beginAttempt c s) := by
  obtain ⟨synced, speaks, clear, idle⟩ := s.mayTransmit_iff.1 may
  unfold beginAttempt
  split
  · exact h.congr (.of_eq (by simp)) (by simp) (by simp)
  · next loopback =>
    have normal : s.line.mode = .normal := by
      cases mode : s.line.mode with
      | normal => rfl
      | listenOnly => exact absurd mode speaks
      | loopback => exact absurd mode loopback
    refine ⟨fun _ => ⟨synced, normal, clear⟩, fun m held => ?_, fun loading => h.2.2 loading⟩
    have settled := h.settled idle
    exact absurd (settled.symm.trans held) nofun

theorem DriveSafe.set {s : State} (h : DriveSafe s) (c : LineSettings) : DriveSafe (s.modLine (fun u => u.set c)) := by
  have silence (u : LineUnit) (n : Nat) :
      (u.setSilence n).inFlight = u.inFlight ∧ (u.setSilence n).state = u.state ∧ (u.setSilence n).mode = u.mode ∧
        (u.setSilence n).pendingMode = u.pendingMode := by
    unfold LineUnit.setSilence; split <;> exact ⟨rfl, rfl, rfl, rfl⟩
  obtain ⟨flight, state, mode, pending⟩ :=
    silence { s.line with rateMode := c.rateMode, configuredRate := c.rate } c.silenceTime
  dsimp only at flight state mode pending
  by_cases flies : s.line.inFlight.isSome = true
  · obtain ⟨synced, normal, clear⟩ := h.1 flies
    have line : s.line.set c = { ({ s.line with rateMode := c.rateMode, configuredRate := c.rate } : LineUnit).setSilence
        c.silenceTime with pendingMode := if c.mode = .normal then none else some c.mode } := by
      rw [LineUnit.set, LineUnit.setMode, if_pos (by rw [flight]; exact flies)]
    refine ⟨fun _ => ?_, fun m held => ?_, fun loading => ?_⟩
    · rw [State.modLine_line, line]
      exact ⟨state.trans synced, mode.trans normal, clear⟩
    · rw [State.modLine_line, line] at held ⊢
      dsimp only at held ⊢
      split at held
      · simp at held
      · next other => obtain rfl := Option.some.inj held; exact ⟨by rw [flight]; exact flies, other⟩
    · exact absurd loading (h.not_loading (by simp [synced]))
  · have idle : s.line.inFlight = none := by simpa using flies
    have line : s.line.set c = { ({ s.line with rateMode := c.rateMode, configuredRate := c.rate } : LineUnit).setSilence
        c.silenceTime with mode := c.mode } := by
      rw [LineUnit.set, LineUnit.setMode, if_neg (by rw [flight]; exact flies)]
    refine .of_idle ?_ ?_ fun loading => ?_ <;> rw [State.modLine_line, line]
    · exact flight.trans idle
    · exact pending.trans (h.settled idle)
    · exact state.trans (h.2.2 loading)

theorem turnLineOff_driveSafe {s : State} (h : DriveSafe s) : DriveSafe (turnLineOff s) := by
  by_cases off : s.line.state = .off
  · rwa [turnLineOff_of_off off]
  · refine .of_idle ?_ ?_ fun _ => ?_ <;> rw [turnLineOff_line off]
    · exact abortAttempt_inFlight s
    · exact abortAttempt_pendingMode h

theorem driveSafe_kept : Kept DriveSafe where
  exchange h _ := h.congr (.refl _) rfl rfl
  block := by
    intro s t p h ready done
    have loaded : s.loader.state ≠ .loading := by rw [ready.2]; nofun
    obtain calm | ⟨c, rfl⟩ | ⟨off, rfl⟩ | rfl | ⟨-, rfl⟩ := done.line
    · cases done with
      | quietClear =>
        refine ⟨fun flies => ?_, h.2⟩
        obtain ⟨synced, normal, -⟩ := h.1 flies
        exact ⟨synced, normal, rfl⟩
      | _ => exact h.congr calm (by simp) (by simp)
    · exact h.set c
    · have idle := h.idle (by simp [off])
      exact .of_idle (by simpa using idle) (by simpa using h.settled idle) fun loading => absurd (by simpa using loading) loaded
    · exact turnLineOff_driveSafe h
    · exact .of_idle (by simp) (by simpa using abortAttempt_pendingMode h) fun loading =>
        absurd (by simpa using loading) loaded
  event := by
    intro s t h done
    cases done with
    | draw | window | trigger | pin => exact h
    | wakeTimer p => exact h
    | receive r on idle =>
      exact .of_idle (receive_idle idle r) (receive_settled (h.settled idle) r) fun loading =>
        absurd (by simpa using loading) (h.not_loading on)
    | begin c may => exact h.begin may c
    | sent r flies =>
      have synced := (h.1 (by simp [flies])).1
      exact .of_idle (by simp) (by simp) fun loading => absurd (by simpa using loading) (h.not_loading (by simp [synced]))
    | lost r flies =>
      have synced := (h.1 (by simp [flies])).1
      exact .of_idle (by simp) (by simp) fun loading => absurd (by simpa using loading) (h.not_loading (by simp [synced]))
    | failed r flies =>
      have synced := (h.1 (by simp [flies])).1
      exact .of_idle (by simp [endError]) (by simp [endError]) fun loading =>
        absurd (by simpa using loading) (h.not_loading (by simp [synced]))
    | dwell searching =>
      have idle := h.idle (by simp [searching])
      exact .of_idle idle (h.settled idle) h.2.2
    | silence synced => exact h
    | detach p cause => exact h.congr (teardown_lineCalm p cause s) (by simp) (by simp)
    | slot n => exact h.congr (expire_effect n s).lineCalm (by simp) (by simp)
    | latch ready =>
      exact .of_idle (by simp) (by simpa using abortAttempt_pendingMode h) fun loading => by simp [ready] at loading
    | tick => exact h
    | load image i _ loading =>
      have idle := h.idle (by simp [h.2.2 loading])
      have settled := h.settled idle
      refine .of_idle ?_ ?_ fun loads => ?_
      · rw [installImage_line]; split <;> simpa [LineUnit.install] using idle
      · rw [installImage_line]; split <;> simpa [LineUnit.install] using settled
      · rw [installImage_eq] at loads
        split at loads
        · rw [startLine_loader] at loads; exact absurd loads nofun
        · exact absurd loads nofun
    | loadFails _ loading =>
      have idle := h.idle (by simp [h.2.2 loading])
      exact .of_idle idle (h.settled idle) nofun
    | resetStart kind => exact .of_idle rfl rfl h.2.2
    | resetEnd kind pins =>
      rw [loadDecision_resetValues]
      exact .of_idle rfl rfl fun _ => rfl

/-! ## Driving the I2C bus -/

theorem LoaderSafe.congr {s t : State} (h : LoaderSafe s) (loader : t.loader = s.loader)
    (resetting : t.resetting = s.resetting) : LoaderSafe t := by
  simpa only [LoaderSafe, loader, resetting] using h

/-- With the loader READY or the hub in a device reset, the time limit is stopped and the bus released. -/
theorem LoaderSafe.of_released {t : State} (released : ¬(t.resetting = none ∧ t.loader.state = .loading))
    (stopped : t.loader.timer = none) (free : t.loader.transfer = []) : LoaderSafe t :=
  ⟨fun loads => absurd loads released, fun _ => free, by rw [stopped]; exact ⟨nofun, fun loads => absurd loads released⟩⟩

theorem installImage_loader (i : Image) (s : State) :
    (installImage i s).loader =
      { s.loader with state := .ready, loadFault := false, timer := none, transfer := [] } := by
  rw [installImage_eq]
  split
  · rw [startLine_loader]; rfl
  · rfl

theorem Loader.decided_loaderSafe (s : State) (straps : Straps) (live : s.resetting = none) :
    LoaderSafe { s with loader := Loader.decided straps } := by
  obtain ⟨loaden, adr1, adr0⟩ := straps
  cases loaden with
  | true => exact ⟨fun _ => rfl, fun released => absurd ⟨live, rfl⟩ released, fun _ => ⟨live, rfl⟩, fun _ => rfl⟩
  | false => exact .of_released (fun loads => nomatch loads.2) rfl rfl

theorem loaderSafe_kept : Kept LoaderSafe where
  exchange h _ := h.congr rfl rfl
  block := by
    intro s t p h _ done
    cases done <;> exact h.congr (by simp) (by simp)
  event := by
    intro s t h done
    cases done with
    | load image i =>
      refine .of_released (fun loads => ?_) ?_ ?_
      · rw [installImage_loader] at loads; exact nomatch loads.2
      · rw [installImage_loader]
      · rw [installImage_loader]
    | loadFails => exact .of_released (fun loads => nomatch loads.2) rfl rfl
    | resetStart kind => exact .of_released (fun loads => nomatch loads.1) rfl rfl
    | resetEnd kind pins =>
      rw [loadDecision_resetValues]
      exact Loader.decided_loaderSafe _ _ rfl
    | tick =>
      obtain ⟨reads, released, limit⟩ := h
      exact ⟨reads, released, (Bool.eq_iff_iff.1 (tickTimer_isSome s.loader.timer)).trans limit⟩
    | _ => exact h.congr (by simp) (by simp)

/-- Settles O54: the line unit agrees with its state after each of its operations; an attempt begins where R14 allows one
and has ended before the line leaves SYNCED or the latch is set; the loader's transfer begins and ends with its load. -/
theorem lineStaysSafe : Obligations.LineStaysSafe := by
  refine ⟨fun s t h done => ?_, driveSafe_kept.step, loaderSafe_kept.step⟩
  rw [lineSafe_iff] at h ⊢
  exact lineAgrees_kept.step s t h done

end Sys2Proof.Machine

/-! PROOF. The buffer pool and the transmit queues at every step (04, R57, R58; 05, R74, R75, R81, R86). -/

namespace Sys2Proof.Machine

/-! ## What the queues claim of the pool -/

/-- The buffers a queue holds or keeps in reserve. -/
def RxQueue.claim (q : RxQueue) : Nat := max q.reserve q.queue.length

/-- The buffers the four queues hold or keep in reserve. -/
def State.claimed (s : State) : Nat := sumPorts (fun p => (s.rx.get p).claim)

/-- What the queues claim are their records and the outstanding reserve. -/
theorem State.claimed_eq (s : State) : s.claimed = s.outstanding + sumPorts s.occupancy := by
  simp only [State.claimed, State.outstanding, sumPorts, RxQueue.claim, State.occupancy]
  omega

/-- The free buffers cover the outstanding reserve exactly when the queues claim no more than the pool. -/
theorem State.covered_iff (s : State) :
    (s.outstanding ≤ s.freeCount ∧ sumPorts s.occupancy ≤ Config.poolBuffers) ↔ s.claimed ≤ Config.poolBuffers := by
  rw [State.claimed_eq]
  simp only [State.freeCount]
  omega

theorem sumPorts_set {α : Type} (f : α → Nat) (q : Quad α) (p : Port) (x : α) :
    sumPorts (fun r => f ((q.set p x).get r)) + f (q.get p) = sumPorts (fun r => f (q.get r)) + f x := by
  cases p <;> simp only [sumPorts, Quad.set, Quad.get] <;> omega

/-- One queue replaced changes what is claimed by what that queue claims. -/
theorem State.claimed_set {s t : State} {p : Port} {q : RxQueue} (rx : t.rx = s.rx.set p q) :
    t.claimed + (s.rx.get p).claim = s.claimed + q.claim := by
  rw [State.claimed, rx]
  exact sumPorts_set RxQueue.claim s.rx p q

/-! ## The pool's invariant in its three parts -/

/-- The queues claim no more than the pool, and their settings are in range. -/
def PoolOk (s : State) : Prop :=
  s.claimed ≤ Config.poolBuffers ∧ ∀ p, poolSettingsOk (s.rx.get p).reserve (s.rx.get p).limit

/-- Every port's loaded defaults are in range. -/
def DefaultsOk (s : State) : Prop :=
  ∀ p, poolSettingsOk (s.unit p).defaults.reserve (s.unit p).defaults.limit

/-- While the loader is LOADING the line is OFF, nothing is in flight and every receive queue is empty (04, R72). -/
def LoadsEmpty (s : State) : Prop :=
  s.loader.state = .loading → s.line.state = .off ∧ s.line.inFlight = none ∧ ∀ p, (s.rx.get p).queue = []

theorem poolSafe_iff (s : State) : PoolSafe s ↔ PoolOk s ∧ DefaultsOk s ∧ LoadsEmpty s := by
  simp only [PoolSafe, ← and_assoc (a := s.outstanding ≤ s.freeCount), State.covered_iff, forall_and, PoolOk, DefaultsOk,
    LoadsEmpty]
  tauto

theorem PoolOk.congr {s t : State} (h : PoolOk s) (rx : t.rx = s.rx) : PoolOk t := by
  simpa only [PoolOk, State.claimed, rx] using h

theorem DefaultsOk.congr {s t : State} (h : DefaultsOk s) (defaults : ∀ q, (t.unit q).defaults = (s.unit q).defaults) :
    DefaultsOk t := fun p => by rw [defaults]; exact h p

theorem LoadsEmpty.congr {s t : State} (h : LoadsEmpty s) (loader : t.loader.state = s.loader.state)
    (line : LineCalm s.line t.line) (rx : t.rx = s.rx) : LoadsEmpty t := by
  intro loading
  obtain ⟨off, idle, empty⟩ := h (loader ▸ loading)
  refine ⟨by rw [line.line]; exact off, ?_, by rwa [rx]⟩
  have := line.flight
  simpa [idle] using this

/-- Outside a load nothing is asked. -/
theorem LoadsEmpty.of_not_loading {t : State} (h : t.loader.state ≠ .loading) : LoadsEmpty t := fun loading => absurd loading h

/-- The line being on, or an attempt in flight, the loader is not LOADING. -/
theorem LoadsEmpty.not_loading {s : State} (h : LoadsEmpty s) (on : s.line.state ≠ .off ∨ s.line.inFlight ≠ none) :
    s.loader.state ≠ .loading := by
  intro loading
  obtain ⟨off, idle, -⟩ := h loading
  exact on.elim (absurd off) (absurd idle)

/-- One queue replaced by one that claims no more than the pool leaves, its settings in range. -/
theorem PoolOk.set {s t : State} (h : PoolOk s) {p : Port} {q : RxQueue} (rx : t.rx = s.rx.set p q)
    (claims : s.claimed + q.claim ≤ Config.poolBuffers + (s.rx.get p).claim) (settings : poolSettingsOk q.reserve q.limit) :
    PoolOk t := by
  refine ⟨?_, fun r => ?_⟩
  · have := State.claimed_set rx
    omega
  · rw [rx, Quad.get_set]
    split
    · exact settings
    · exact h.2 r

/-- A queue that loses records claims no more. -/
theorem PoolOk.shrink {s t : State} (h : PoolOk s) {p : Port} {records : List RxRecord}
    (rx : t.rx = s.rx.set p { s.rx.get p with queue := records })
    (shorter : records.length ≤ (s.rx.get p).queue.length) : PoolOk t := by
  refine h.set rx ?_ (h.2 p)
  have := h.1
  simp only [RxQueue.claim]
  omega

/-! ## Admissions (R61 to R63) -/

theorem length_of_displaced {s : State} {p : Port} {rest : List RxRecord} (h : s.displaced p = some rest) :
    rest.length + 1 = (s.rx.get p).queue.length := by
  obtain ⟨older, evicted, newer, queue, -, -, rfl⟩ := evictOldest_eq_some (State.evictOldest_of_displaced h)
  simp [queue, Nat.add_assoc]

/-- An admission finds a buffer: one of the port's reserve, a free one beyond the outstanding reserve, or the place of the
record it evicts. -/
theorem PoolOk.admitCopy {s : State} (h : PoolOk s) (p : Port) (r : RxRecord) : PoolOk (admitCopy p r s) := by
  obtain ⟨room, rx⟩ | ⟨rest, -, displaced, rx⟩ | ⟨-, -, rx⟩ := admitCopy_rx_cases p r s
  · refine h.set rx ?_ (h.2 p)
    obtain ⟨-, reserved | headroom⟩ := (State.admits_iff s p).1 room
    · have := h.1
      simp only [RxQueue.claim, List.length_append, List.length_singleton]
      omega
    · have free := (State.one_le_headroom_iff s).1 headroom
      have claimed := s.claimed_eq
      simp only [State.freeCount] at free
      simp only [RxQueue.claim, List.length_append, List.length_singleton]
      omega
  · refine h.shrink rx ?_
    have := length_of_displaced displaced
    simp
    omega
  · exact h.congr rx

theorem PoolOk.admitOpt {s : State} (h : PoolOk s) (p : Port) (r : Option RxRecord) : PoolOk (admitOpt p r s) := by
  cases r with
  | none => exact h
  | some x => exact h.admitCopy p x

theorem PoolOk.admitGroup {s : State} (h : PoolOk s) (a b c d : Option RxRecord) : PoolOk (admitGroup a b c d s) :=
  (((h.admitOpt .a a).admitOpt .b b).admitOpt .c c).admitOpt .d d

/-- Of an offer, the admissions alone act on the receive queues (R64). -/
theorem offer_rx (o : Offer) (answer : Bool) (s : State) :
    (offer o answer s).rx = (admitGroup (o.decide s .a).copy (o.decide s .b).copy (o.decide s .c).copy
      (o.decide s .d).copy s).rx := by
  simp only [offer]
  split <;> simp [Offer.decisions]

theorem PoolOk.offer {s : State} (h : PoolOk s) (o : Offer) (answer : Bool) : PoolOk (offer o answer s) :=
  (h.admitGroup _ _ _ _).congr (offer_rx o answer s)

theorem PoolOk.receive {s : State} (h : PoolOk s) (r : Reception) : PoolOk (receive r s) := by
  cases r with
  | clean t => exact PoolOk.offer (h.congr (cleanReception_rx s)) _ _
  | codingError | formatError | checkError => exact h.congr (receptionError_rx s)

theorem PoolOk.beginAttempt {s : State} (h : PoolOk s) (c : Candidate) : PoolOk (beginAttempt c s) := by
  unfold Machine.beginAttempt
  split
  · exact (h.offer _ _).congr (reportSent_rx _ _)
  · exact h

theorem PoolOk.endSent {s : State} (h : PoolOk s) (r : InFlight) : PoolOk (endSent r s) :=
  PoolOk.congr (PoolOk.offer (s := s.modLine _) h _ _) (reportSent_rx _ _)

/-! ## Teardown, PORT_RESET and the installations -/

theorem forSlots_rx {f : Nat → State → State} (h : ∀ n t, (f n t).rx = t.rx) (s : State) : (forSlots f s).rx = s.rx :=
  forSlots_keeps (I := fun t => t.rx = s.rx) (fun n t ht => (h n t).trans ht) rfl

/-- A teardown empties its port's receive queue and leaves the settings and the other queues (R160 step 3; 04, R71). -/
theorem teardown_rx (p : Port) (cause : DetachCause) (s : State) :
    (teardown p cause s).rx = s.rx.set p { s.rx.get p with queue := [] } := by
  rw [teardown_eq, State.modUnit_rx, released, forSlots_rx (by simp), forSlots_rx (by simp)]
  simp [clearRx, clearTx]

theorem PoolOk.teardown {s : State} (h : PoolOk s) (p : Port) (cause : DetachCause) : PoolOk (teardown p cause s) :=
  h.shrink (teardown_rx p cause s) (Nat.zero_le _)

theorem restoreDefaults_rx (p : Port) (s : State) :
    (restoreDefaults p s).rx = s.rx.set p ⟨(s.rx.get p).queue, s.restoredReserve p, (s.unit p).defaults.limit,
      (s.unit p).defaults.policy⟩ := rfl

/-- What the other three queues claim. -/
theorem claimed_others (s : State) (p : Port) :
    sumPorts (fun q => if q = p then 0 else max (s.rx.get q).reserve (s.occupancy q)) + (s.rx.get p).claim =
      s.claimed := by
  cases p <;> simp [sumPorts, State.claimed, RxQueue.claim, State.occupancy] <;> omega

/-- The restored reserve leaves no negative headroom (R71). -/
theorem PoolOk.restoreDefaults {s : State} (h : PoolOk s) (defaults : DefaultsOk s) (p : Port) :
    PoolOk (restoreDefaults p s) := by
  obtain ⟨few, low, high, limited⟩ := defaults p
  refine h.set (restoreDefaults_rx p s) ?_ ?_
  · have others := claimed_others s p
    have pool := h.1
    simp only [RxQueue.claim, State.restoredReserve] at others ⊢
    omega
  · simp only [poolSettingsOk, State.restoredReserve]
    omega

/-- Four empty queues with reserves in range claim no more than the pool. -/
theorem PoolOk.of_empty {t : State} (empty : ∀ p, (t.rx.get p).queue = [])
    (settings : ∀ p, poolSettingsOk (t.rx.get p).reserve (t.rx.get p).limit) : PoolOk t := by
  refine ⟨?_, settings⟩
  have a := (settings .a).1
  have b := (settings .b).1
  have c := (settings .c).1
  have d := (settings .d).1
  simp only [State.claimed, sumPorts, RxQueue.claim, empty, Config.poolBuffers, List.length_nil]
  omega

theorem poolSettingsOk_builtIn : poolSettingsOk 16 64 := by
  unfold poolSettingsOk; decide

theorem resetValues_rx_get (kind : ResetKind) (pins : PinsAtEnd) (s : State) (p : Port) :
    (resetValues kind pins s).rx.get p = RxQueue.atReset := Quad.get_all p _

/-! ## The pool at every step -/

/-- A block that leaves the receive queues and the loader keeps the pool. -/
theorem poolSafe_congr {s t : State} (h : PoolSafe s) (rx : t.rx = s.rx)
    (defaults : ∀ q, (t.unit q).defaults = (s.unit q).defaults) (loads : LoadsEmpty s → LoadsEmpty t) : PoolSafe t := by
  obtain ⟨pool, loaded, empty⟩ := (poolSafe_iff s).1 h
  exact (poolSafe_iff t).2 ⟨pool.congr rx, loaded.congr defaults, loads empty⟩

theorem poolSafe_block {s t : State} {p : Port} (h : PoolSafe s) (ready : s.Ready p) (done : Block p s t) :
    PoolSafe t := by
  obtain ⟨pool, loaded, -⟩ := (poolSafe_iff s).1 h
  have loader : t.loader = s.loader := by cases done <;> simp
  refine (poolSafe_iff t).2 ⟨?_, loaded.congr done.defaults, .of_not_loading (by rw [loader, ready.2]; nofun)⟩
  cases done with
  | fetch r rest head => exact pool.shrink rfl (by simp [head])
  | flushRx => exact pool.shrink rfl (Nat.zero_le _)
  | setReserve q reserve limit policy inRange covered =>
    refine ⟨?_, fun r => ?_⟩
    · have held := ((State.covered_iff s).2 pool.1).2
      refine (State.covered_iff _).1 ⟨covered, le_trans (le_of_eq ?_) held⟩
      cases q <;> rfl
    · rw [State.setRx_rx, Quad.get_set]
      split
      · exact inRange
      · exact pool.2 r
  | detach => exact pool.teardown p _
  | resetDetached =>
    refine PoolOk.restoreDefaults (pool.congr ?_) (loaded.congr ?_) p
    · rfl
    · exact State.modUnit_defaults (by intro; rfl) s
  | resetAttached => exact (pool.teardown p _).restoreDefaults (loaded.congr (teardown_unit_defaults p · _ s)) p
  | _ => exact pool.congr (by simp)

theorem poolSafe_event {s t : State} (h : PoolSafe s) (done : Event s t) : PoolSafe t := by
  obtain ⟨pool, loaded, empty⟩ := (poolSafe_iff s).1 h
  cases done with
  | draw | window | trigger | pin => exact h
  | receive r on idle =>
    refine (poolSafe_iff _).2 ⟨pool.receive r, loaded.congr (receive_stirs r s).defaults, .of_not_loading ?_⟩
    simpa using empty.not_loading (.inl on)
  | begin c may =>
    refine (poolSafe_iff _).2 ⟨pool.beginAttempt c, loaded.congr (beginAttempt_stirs c s).defaults, .of_not_loading ?_⟩
    simpa using empty.not_loading (.inl (by simp [(s.mayTransmit_iff.1 may).1]))
  | sent r flies =>
    refine (poolSafe_iff _).2 ⟨pool.endSent r, loaded.congr (endSent_stirs r s).defaults, .of_not_loading ?_⟩
    simpa using empty.not_loading (.inr (by simp [flies]))
  | lost r flies =>
    refine poolSafe_congr h rfl (fun _ => rfl) fun _ => .of_not_loading ?_
    simpa using empty.not_loading (.inr (by simp [flies]))
  | failed r flies =>
    refine poolSafe_congr h (by simp) (endError_stirs r s).defaults fun _ => .of_not_loading ?_
    simpa using empty.not_loading (.inr (by simp [flies]))
  | dwell searching =>
    exact poolSafe_congr h rfl (fun _ => rfl) fun _ => .of_not_loading (empty.not_loading (.inl (by simp [searching])))
  | silence synced =>
    exact poolSafe_congr h rfl (silenceExpiry_stirs s).defaults fun _ =>
      .of_not_loading (empty.not_loading (.inl (by simp [synced])))
  | detach p cause =>
    refine (poolSafe_iff _).2 ⟨pool.teardown p cause, loaded.congr (teardown_unit_defaults p · cause s), fun loading => ?_⟩
    obtain ⟨off, idle, none_⟩ := empty (by simpa using loading)
    have calm := teardown_lineCalm p cause s
    refine ⟨by rw [calm.line]; exact off, by simpa [idle] using calm.flight, fun q => ?_⟩
    rw [teardown_rx, Quad.get_set]
    split
    · rfl
    · exact none_ q
  | wakeTimer p =>
    refine poolSafe_congr h rfl (fun q => ((present_stirs _ _ _ _).defaults q).trans ?_) id
    exact State.modUnit_defaults (by intro; rfl) s q
  | slot n =>
    exact poolSafe_congr h (by simp) (expire_effect n s).units.stirs.defaults fun loads =>
      loads.congr (by simp) (expire_effect n s).lineCalm (by simp)
  | latch ready =>
    refine poolSafe_congr h (by simp) (setLatch_stirs s).defaults fun _ => .of_not_loading ?_
    rw [setLatch_loader, ready]
    nofun
  | tick => exact poolSafe_congr h rfl (fun q => by cases q <;> rfl) id
  | load image i _ loading read =>
    have sections (p : Port) := (readImage_sections read p).2
    have none_ := (empty loading).2.2
    refine (poolSafe_iff _).2 ⟨.of_empty (fun p => ?_) (fun p => ?_), fun p => ?_, .of_not_loading ?_⟩
    · rw [installImage_rx, Image.installed_rx]; exact none_ p
    · rw [installImage_rx, Image.installed_rx]; exact sections p
    · rw [(installImage_stirs i s).defaults, Image.installed_unit]; exact sections p
    · rw [installImage_loader]; nofun
  | loadFails _ loading =>
    have none_ := (empty loading).2.2
    refine (poolSafe_iff _).2 ⟨.of_empty (fun p => ?_) (fun p => ?_), fun p => ?_, .of_not_loading nofun⟩
    · rw [installBuiltIn_rx_get]; exact none_ p
    · rw [installBuiltIn_rx_get]; exact poolSettingsOk_builtIn
    · rw [installBuiltIn_unit]; exact poolSettingsOk_builtIn
  | resetStart kind =>
    refine poolSafe_congr h rfl (fun _ => rfl) fun _ loading => ?_
    obtain ⟨off, -, none_⟩ := empty loading
    exact ⟨off, rfl, none_⟩
  | resetEnd kind pins =>
    have rx (p : Port) := resetValues_rx_get kind pins s p
    rw [loadDecision_resetValues]
    refine (poolSafe_iff _).2 ⟨.of_empty (fun p => ?_) (fun p => ?_), fun p => ?_, fun _ => ⟨rfl, rfl, fun p => ?_⟩⟩
    · exact congrArg RxQueue.queue (rx p)
    · exact (rx p).symm ▸ poolSettingsOk_builtIn
    · exact (resetValues_unit kind pins s p).symm ▸ poolSettingsOk_builtIn
    · exact congrArg RxQueue.queue (rx p)

theorem poolSafe_kept : Kept PoolSafe where
  exchange h exchanged := poolSafe_congr h rfl exchanged.setUnit_defaults id
  block h ready done := poolSafe_block h ready done
  event h done := poolSafe_event h done

/-! ## The transmit queues -/

/-- What `TxSafe` asks of one queue. -/
def TxQueue.Ok (q : TxQueue) : Prop :=
  q.entries.length ≤ Config.txDepth ∧ (∀ e ∈ q.entries, e.Sound) ∧ (q.headSince.isSome = true ↔ q.entries ≠ [])

theorem TxQueue.ok_empty : TxQueue.Ok ⟨[], none⟩ := ⟨Nat.zero_le _, by simp, by simp⟩

theorem TxQueue.ok_started {entries : List TxEntry} (short : entries.length ≤ Config.txDepth)
    (sound : ∀ e ∈ entries, e.Sound) (filled : entries ≠ []) (since : Nat) : TxQueue.Ok ⟨entries, some since⟩ :=
  ⟨short, sound, fun _ => filled, fun _ => rfl⟩

theorem txSafe_iff (s : State) : TxSafe s ↔ ∀ p, (s.tx.get p).Ok := Iff.rfl

theorem TxSafe.congr {s t : State} (h : TxSafe s) (tx : t.tx = s.tx) : TxSafe t := by
  rw [txSafe_iff] at h ⊢
  rwa [tx]

theorem TxSafe.set {s t : State} (h : TxSafe s) {p : Port} {q : TxQueue} (tx : t.tx = s.tx.set p q) (ok : q.Ok) :
    TxSafe t := by
  rw [txSafe_iff] at h ⊢
  intro r
  rw [tx, Quad.get_set]
  split
  · exact ok
  · exact h r

theorem TxSafe.append {s : State} (h : TxSafe s) (p : Port) {more : List TxEntry}
    (room : (s.tx.get p).entries.length + more.length ≤ Config.txDepth) (sound : ∀ e ∈ more, e.Sound)
    (some_ : more ≠ []) : TxSafe (appendTx p more s) := by
  obtain ⟨-, old, head⟩ := h p
  simp only [appendTx]
  split
  · exact h.set rfl (TxQueue.ok_started (by omega) sound some_ _)
  · next filled =>
    refine h.set rfl ⟨by rw [List.length_append]; exact room, fun e mem => ?_, ?_⟩
    · exact (List.mem_append.1 mem).elim (old e) (sound e)
    · have waiting : (s.tx.get p).entries ≠ [] := by simpa using filled
      simp [head, waiting]

theorem TxSafe.removeHead {s : State} (h : TxSafe s) (p : Port) : TxSafe (removeHead p s) := by
  obtain ⟨short, sound, -⟩ := h p
  simp only [Machine.removeHead]
  split
  · exact h.set rfl TxQueue.ok_empty
  · next rest filled =>
    refine h.set rfl (TxQueue.ok_started ?_ (fun e mem => sound e (List.mem_of_mem_tail mem)) filled _)
    rw [List.length_tail]
    omega

theorem TxSafe.headSent {s : State} (h : TxSafe s) (p : Port) : TxSafe (headSent p s) := by
  simp only [Machine.headSent]
  split
  · exact h
  · exact (h.removeHead p).congr rfl

theorem TxSafe.headError {s : State} (h : TxSafe s) (p : Port) : TxSafe (headError p s) := by
  simp only [Machine.headError]
  split
  · exact h
  · next e rest filled =>
    split
    · next more =>
      obtain ⟨short, sound, head⟩ := h p
      rw [filled] at short sound head
      refine h.set rfl ⟨short, fun x mem => ?_, ?_⟩
      · obtain rfl | mem := List.mem_cons.1 mem
        · exact ⟨more, (sound e List.mem_cons_self).2⟩
        · exact sound x (List.mem_cons_of_mem _ mem)
      · simpa using head
    · exact (h.removeHead p).congr rfl

theorem TxSafe.reportSent {s : State} (h : TxSafe s) (src : Source) : TxSafe (reportSent src s) := by
  cases src with
  | queueHead p => exact h.headSent p
  | dueEntry n => exact h.congr (dueSent_tx n s)
  | none => exact h

theorem TxSafe.reportError {s : State} (h : TxSafe s) (src : Source) : TxSafe (reportError src s) := by
  cases src with
  | queueHead p => exact h.headError p
  | dueEntry n => exact h.congr (dueError_tx n s)
  | none => exact h

theorem forSlots_tx {f : Nat → State → State} (h : ∀ n t, (f n t).tx = t.tx) (s : State) : (forSlots f s).tx = s.tx :=
  forSlots_keeps (I := fun t => t.tx = s.tx) (fun n t ht => (h n t).trans ht) rfl

/-- A teardown empties its port's transmit queue and leaves the others (R160 step 2; 05, R87). -/
theorem teardown_tx (p : Port) (cause : DetachCause) (s : State) :
    (teardown p cause s).tx = s.tx.set p ⟨[], none⟩ := by
  rw [teardown_eq, State.modUnit_tx, released, forSlots_tx (by simp), forSlots_tx (by simp)]
  simp [clearRx, clearTx]

theorem wakeEntry_sound (stamp : Stamp) : (wakeEntry stamp).Sound :=
  ⟨Nat.zero_lt_succ _, Nat.zero_le _, ⟨fun _ => rfl, fun _ => rfl⟩, fun _ => rfl⟩

theorem txSafe_atReset : TxSafe State.reset := fun p => by
  rw [show State.reset.tx.get p = TxQueue.atReset from Quad.get_all p _]
  exact TxQueue.ok_empty

theorem txSafe_kept : Kept TxSafe where
  exchange h _ := h.congr rfl
  block := by
    intro s t p h _ done
    cases done with
    | send e _ sound room => exact h.append p room (by simpa using sound) (by simp)
    | sendWake _ room =>
      refine h.append p ?_ (by simpa using wakeEntry_sound s.stamp) (by simp)
      simp only [List.length_cons, List.length_nil, Config.txDepth]
      omega
    | txFlushBehind =>
      obtain ⟨short, sound, head⟩ := h p
      refine h.set rfl ⟨?_, fun e mem => sound e (List.mem_of_mem_take mem), ?_⟩
      · rw [List.length_take]; omega
      · simpa using head
    | txFlush => exact h.set rfl TxQueue.ok_empty
    | detach => exact h.set (teardown_tx p _ s) TxQueue.ok_empty
    | resetAttached => exact h.set ((restoreDefaults_tx _ _).trans (teardown_tx p _ s)) TxQueue.ok_empty
    | _ => exact h.congr (by simp)
  event := by
    intro s t h done
    cases done with
    | begin c =>
      simp only [beginAttempt]
      split
      · exact (h.congr (offer_tx _ _ _)).reportSent _
      · exact h
    | sent r =>
      refine TxSafe.reportSent ?_ _
      exact h.congr (by simp)
    | failed r =>
      refine TxSafe.congr (TxSafe.reportError ?_ r.source) (checkDegraded_tx _)
      exact h.congr rfl
    | detach p cause => exact h.set (teardown_tx p cause s) TxQueue.ok_empty
    | resetEnd kind pins =>
      rw [loadDecision_resetValues]
      exact txSafe_atReset.congr rfl
    | _ => exact h.congr (by simp)

/-- Settles O57: for the pool, what the queues hold or keep in reserve never exceeds it, and each admission finds its
buffer; for the transmit queues, SEND and SEND_WAKE append sound entries where there is room, and an outcome counts an
attempt or removes a head. -/
theorem queuesStaySafe : Obligations.QueuesStaySafe := ⟨poolSafe_kept.step, txSafe_kept.step⟩

end Sys2Proof.Machine

/-! PROOF. The lease holder, and the timers and wake state of the ports, at every step (08, R135, R142, R145, R147; 09, R158,
R167). -/

namespace Sys2Proof.Machine

/-! ## The lease (R167, R168) -/

@[simp] theorem LineUnit.restartSilence_lease (u : LineUnit) : u.restartSilence.lease = u.lease := by
  unfold LineUnit.restartSilence; split <;> rfl
@[simp] theorem LineUnit.subError_lease (u : LineUnit) : u.subError.lease = u.lease := by
  unfold LineUnit.subError; split <;> rfl
@[simp] theorem LineUnit.addErrors_lease (u : LineUnit) (n : Nat) : (u.addErrors n).lease = u.lease := by
  unfold LineUnit.addErrors; split <;> rfl
@[simp] theorem LineUnit.started_lease (u : LineUnit) : u.started.lease = u.lease := by
  unfold LineUnit.started; split <;> rfl
@[simp] theorem LineUnit.endAttempt_lease (u : LineUnit) : u.endAttempt.lease = u.lease := rfl
@[simp] theorem LineUnit.set_lease (u : LineUnit) (c : LineSettings) : (u.set c).lease = u.lease := by
  unfold LineUnit.set LineUnit.setMode LineUnit.setSilence
  repeat' split
  all_goals rfl

@[simp] theorem checkDegraded_lease (s : State) : (checkDegraded s).line.lease = s.line.lease := by
  rw [checkDegraded_line]; split <;> rfl

@[simp] theorem abortAttempt_lease (s : State) : (abortAttempt s).line.lease = s.line.lease := by
  rw [abortAttempt_line]; split <;> simp

@[simp] theorem turnLineOff_lease (s : State) : (turnLineOff s).line.lease = s.line.lease := by
  by_cases off : s.line.state = .off
  · rw [turnLineOff_of_off off]
  · rw [turnLineOff_line off]; exact abortAttempt_lease s

theorem receptionError_lease (s : State) : (receptionError s).line.lease = s.line.lease := by
  unfold receptionError; split <;> simp

theorem cleanReception_lease (s : State) : (cleanReception s).line.lease = s.line.lease := by
  unfold cleanReception
  repeat' split
  all_goals simp [LineUnit.synced]

@[simp] theorem receive_lease (r : Reception) (s : State) : (receive r s).line.lease = s.line.lease := by
  cases r with
  | clean t => rw [receive, offer_line, cleanReception_lease]
  | codingError | formatError | checkError => exact receptionError_lease s

@[simp] theorem installImage_lease (i : Image) (s : State) : (installImage i s).line.lease = s.line.lease := by
  rw [installImage_line]; split <;> simp [LineUnit.install]

theorem releaseLease_lease (p : Port) (s : State) :
    (releaseLease p s).line.lease = if s.line.lease = some p then none else s.line.lease := by
  unfold releaseLease State.holds
  split <;> simp_all

theorem SlotEffect.lease {s t : State} (h : SlotEffect s t) : t.line.lease = s.line.lease := by rw [h.line]

/-- A teardown releases the lease of its own port alone (R160 step 1). -/
theorem teardown_lease (p : Port) (cause : DetachCause) (s : State) :
    (teardown p cause s).line.lease = if s.line.lease = some p then none else s.line.lease := by
  rw [teardown_eq, State.modUnit_line, released, (forSlots_effect (dropStandIn_effect p) _).lease,
    (forSlots_effect (disposeSlot_effect p) _).lease, ← releaseLease_lease]
  exact (cut_effect (.queueHead p) (releaseLease p s)).lease

/-- The lease stays with its holder or is free, and who is ACTIVE stays so, but for a port that has lost the lease. -/
theorem LeaseSafe.congr {s t : State} (h : LeaseSafe s) (lease : ∀ q, t.line.lease = some q → s.line.lease = some q)
    (active : ∀ q, t.line.lease = some q → (s.unit q).state = .active → (t.unit q).state = .active) : LeaseSafe t :=
  fun q holds => active q holds (h q (lease q holds))

theorem LeaseSafe.stirs {s t : State} (h : LeaseSafe s) (lease : t.line.lease = s.line.lease) (stirs : Stirs s t) :
    LeaseSafe t :=
  h.congr (fun _ holds => lease ▸ holds) fun _ _ => stirs.active

theorem LeaseSafe.modUnit {s : State} (h : LeaseSafe s) {p : Port} {f : PortUnit → PortUnit}
    (active : (s.unit p).state = .active → (f (s.unit p)).state = .active) : LeaseSafe (s.modUnit p f) := by
  refine h.congr (fun _ holds => holds) fun q _ hq => ?_
  by_cases same : q = p
  · subst same; rw [State.modUnit_unit_same]; exact active hq
  · rwa [State.modUnit_unit_ne _ _ _ same]

/-- Once the lease is released the port may leave ACTIVE. -/
theorem LeaseSafe.release {s t : State} (h : LeaseSafe s) {p : Port}
    (lease : t.line.lease = if s.line.lease = some p then none else s.line.lease)
    (others : ∀ q, q ≠ p → (s.unit q).state = .active → (t.unit q).state = .active) : LeaseSafe t := by
  have holder (q : Port) (holds : t.line.lease = some q) : s.line.lease = some q ∧ q ≠ p := by
    rw [lease] at holds
    split at holds
    · simp at holds
    · next other => exact ⟨holds, fun same => other (same ▸ holds)⟩
  exact h.congr (fun q holds => (holder q holds).1) fun q holds => others q (holder q holds).2

theorem LeaseSafe.teardown {s : State} (h : LeaseSafe s) (p : Port) (cause : DetachCause) :
    LeaseSafe (teardown p cause s) :=
  h.release (teardown_lease p cause s) fun q other hq => by
    rw [teardown_unit_ne other, (released_flagsGained p s).state]; exact hq

theorem LeaseSafe.restoreDefaults {s : State} (h : LeaseSafe s) (p : Port) : LeaseSafe (restoreDefaults p s) := by
  refine h.congr (fun q holds => by simpa using holds) fun q _ active => ?_
  obtain ⟨_, _, unit⟩ := restoreDefaults_unit p q s
  rw [unit]; exact active

theorem takeDoze_line (p : Port) (w : WakeSet) (period : Nat) (s : State) :
    (takeDoze p w period s).line = (releaseLease p s).line := by
  simp only [takeDoze]
  split <;> split <;> rfl

theorem LeaseSafe.takeDoze {s : State} (h : LeaseSafe s) (p : Port) (w : WakeSet) (period : Nat) :
    LeaseSafe (takeDoze p w period s) :=
  h.release ((congrArg LineUnit.lease (takeDoze_line p w period s)).trans (releaseLease_lease p s)) fun q other active => by
    refine (takeDoze_stirs p w period s).active ?_
    rw [State.modUnit_unit_ne _ _ _ other, (releaseLease_flagsGained p s).state]
    exact active

theorem leaseSafe_kept : Kept LeaseSafe where
  exchange := by
    intro s p u h exchanged
    refine h.congr (fun _ holds => holds) fun q _ active => ?_
    by_cases same : q = p
    · subst same; rw [State.setUnit_unit_same, exchanged.unit]; exact active
    · rwa [State.setUnit_unit_ne _ _ _ same]
  block := by
    intro s t p h _ done
    cases done with
    | attach | resume => exact h.modUnit fun _ => rfl
    | setPresence | takeEvents | setEventMask => exact h.modUnit id
    | detach => exact h.teardown p _
    | resetDetached => exact LeaseSafe.restoreDefaults (h.modUnit id) p
    | resetAttached => exact (h.teardown p _).restoreDefaults p
    | doze w period => exact h.takeDoze p w period
    | leaseTake active =>
      intro q holds
      obtain rfl := Option.some.inj holds
      exact active
    | leaseRelease =>
      exact h.release (releaseLease_lease p s) fun q _ => (releaseLease_flagsGained p s).stirs.active
    | slotStop n => exact h.stirs (stopNow_effect n s).lease (stopNow_effect n s).units.stirs
    | slotRemove n => exact h.stirs (removeSlot_effect n s).lease (removeSlot_effect n s).units.stirs
    | standinDetach => exact h.stirs rfl ((State.raise_flagsGained _ _ _).stirs.after rfl)
    | lineOn => exact h.stirs (by simp) (startLine_stirs s)
    | lineOff => exact h.stirs (by simp) (turnLineOff_stirs s)
    | lineResync => exact h.stirs (by simp) ((startLine_stirs _).after (by simp))
    | _ => exact h.stirs (by simp) (.of_ports (by simp))
  event := by
    intro s t h done
    cases done with
    | receive r => exact h.stirs (by simp) (receive_stirs r s)
    | begin c =>
      refine h.stirs ?_ (beginAttempt_stirs c s)
      unfold beginAttempt
      split <;> simp
    | sent r => exact h.stirs (by simp) (endSent_stirs r s)
    | failed r => exact h.stirs (by simp [endError]) (endError_stirs r s)
    | silence => exact h.stirs rfl (silenceExpiry_stirs s)
    | detach p cause => exact h.teardown p cause
    | wakeTimer p => exact LeaseSafe.stirs (h.modUnit id) rfl (present_stirs _ _ _ _)
    | slot n => exact h.stirs (expire_effect n s).lease (expire_effect n s).units.stirs
    | latch => exact h.stirs (by simp) (setLatch_stirs s)
    | tick => exact h.congr (fun _ holds => holds) fun q _ active => by cases q <;> exact active
    | load image i =>
      refine h.congr (fun q holds => by simpa using holds) fun q _ active => (installImage_stirs i s).active ?_
      rw [Image.installed_unit]; exact active
    | loadFails =>
      exact h.congr (fun _ holds => holds) fun q _ active => by rw [installBuiltIn_unit]; exact active
    | resetEnd kind pins =>
      rw [loadDecision_resetValues]
      exact fun q holds => absurd holds nofun
    | lost => exact h.stirs (by simp) (.of_ports rfl)
    | draw | dwell | window | trigger | pin | resetStart => exact h.stirs rfl (.of_ports rfl)

/-! ## The timers and the wake state (R133, R135, R142, R145, R147, R158) -/

theorem PortUnit.Sound.enterWaking {u : PortUnit} (h : u.Sound) (dozing : u.state = .dozing) (c : WakeCause)
    (stamp : Stamp) : (u.enterWaking c stamp).Sound := by
  obtain ⟨presence, -⟩ := h
  refine ⟨fun runs => ?_, nofun, ⟨fun _ => rfl, fun _ => rfl⟩, ⟨fun _ => rfl, fun _ => rfl⟩, fun _ => .inr rfl⟩
  exact absurd (dozing.symm.trans (presence runs)) nofun

theorem PortUnit.Sound.takeCause {u : PortUnit} (h : u.Sound) (c : WakeCause) (stamp : Stamp) :
    (u.takeCause c stamp).Sound := by
  obtain same | ⟨dozing, woken⟩ := u.takeCause_cases c stamp
  · rwa [same]
  · rw [woken]; exact h.enterWaking dozing c stamp

theorem WakeSafe.stirs {s t : State} (h : WakeSafe s) (stirs : Stirs s t) : WakeSafe t := fun q =>
  Stir.keeps (P := PortUnit.Sound) (fun _ _ _ hu => hu) (fun _ c stamp hu => hu.takeCause c stamp) (stirs q) (h q)

theorem WakeSafe.of_ne {s t : State} (h : WakeSafe s) (p : Port) (others : ∀ q, q ≠ p → t.unit q = s.unit q)
    (own : (t.unit p).Sound) : WakeSafe t := fun q => by
  by_cases same : q = p
  · subst same; exact own
  · rw [others q same]; exact h q

theorem WakeSafe.modUnit {s : State} (h : WakeSafe s) {p : Port} {f : PortUnit → PortUnit}
    (sound : (f (s.unit p)).Sound) : WakeSafe (s.modUnit p f) :=
  h.of_ne p (fun _ other => State.modUnit_unit_ne _ _ _ other) (by rwa [State.modUnit_unit_same])

theorem PortUnit.Sound.exchanged {u v : PortUnit} (h : u.Sound) (exchanged : Exchanged u v) : v.Sound := by
  rw [exchanged.unit]
  obtain ⟨presence, rest⟩ := h
  refine ⟨fun runs => ?_, rest⟩
  by_contra other
  exact other (presence (exchanged.timer other ▸ runs))

/-- The presence timer of an ACTIVE port may run or not. -/
theorem PortUnit.Sound.startPresence {u : PortUnit} (h : u.Sound) (active : u.state = .active) (n : Nat) :
    ({ u with presenceInterval := n }).startPresence.Sound := ⟨fun _ => active, h.2⟩

theorem PortUnit.sound_tornDown (u : PortUnit) (cause : DetachCause) : (u.tornDown cause).Sound :=
  ⟨nofun, nofun, ⟨nofun, nofun⟩, ⟨nofun, nofun⟩, fun other => absurd rfl other⟩

theorem PortUnit.Sound.attached {u : PortUnit} (h : u.Sound) (detached : u.state = .detached) : u.attached.Sound := by
  obtain ⟨-, wake, ack, record, set_⟩ := h
  simp only [detached, reduceCtorEq, imp_false, iff_false] at wake ack record set_
  exact ⟨fun _ => rfl, fun runs => absurd runs wake, ⟨fun runs => absurd runs ack, nofun⟩,
    ⟨fun stands => absurd stands record, nofun⟩, fun other => by simp at set_; exact absurd set_ other⟩

theorem PortUnit.sound_resumed (u : PortUnit) : u.resumed.Sound :=
  ⟨fun _ => rfl, nofun, ⟨nofun, nofun⟩, ⟨nofun, nofun⟩, fun other => absurd rfl other⟩

theorem PortUnit.sound_doze (u : PortUnit) (w : WakeSet) (period : Nat) : (u.doze w period).Sound :=
  ⟨nofun, fun _ => rfl, ⟨nofun, nofun⟩, ⟨nofun, nofun⟩, fun _ => .inl rfl⟩

theorem PortUnit.Sound.tick {u : PortUnit} (h : u.Sound) : u.tick.Sound := by
  simpa [PortUnit.Sound, PortUnit.tick] using h

theorem advance_unit (s : State) (p : Port) : (advance s).unit p = (s.unit p).tick := by cases p <;> rfl

theorem WakeSafe.teardown {s : State} (h : WakeSafe s) (p : Port) (cause : DetachCause) :
    WakeSafe (teardown p cause s) :=
  WakeSafe.of_ne (h.stirs (released_flagsGained p s).stirs) p (fun _ other => teardown_unit_ne other cause s)
    (by rw [teardown_unit_same]; exact PortUnit.sound_tornDown _ _)

theorem WakeSafe.restoreDefaults {s : State} (h : WakeSafe s) (p : Port) : WakeSafe (restoreDefaults p s) := fun q => by
  obtain ⟨_, _, unit⟩ := restoreDefaults_unit p q s
  rw [unit]; exact h q

theorem PortUnit.sound_atReset (cause : DetachCause) (b : Bool) :
    ({ PortUnit.atReset cause with staleSelect := b }).Sound :=
  ⟨nofun, nofun, ⟨nofun, nofun⟩, ⟨nofun, nofun⟩, fun other => absurd rfl other⟩

theorem wakeSafe_kept : Kept WakeSafe where
  exchange h exchanged := WakeSafe.of_ne h _ (fun _ other => State.setUnit_unit_ne _ _ _ other)
    (by rw [State.setUnit_unit_same]; exact (h _).exchanged exchanged)
  block := by
    intro s t p h _ done
    cases done with
    | attach detached => exact h.modUnit ((h p).attached detached)
    | setPresence n active => exact h.modUnit ((h p).startPresence active n)
    | resume => exact h.modUnit (PortUnit.sound_resumed _)
    | takeEvents | setEventMask => exact h.modUnit (h p)
    | detach => exact h.teardown p _
    | resetDetached => exact WakeSafe.restoreDefaults (h.modUnit (h p)) p
    | resetAttached => exact (h.teardown p _).restoreDefaults p
    | doze w period =>
      refine WakeSafe.stirs ?_ (takeDoze_stirs p w period s)
      exact (h.stirs (releaseLease_flagsGained p s).stirs).modUnit (PortUnit.sound_doze _ _ _)
    | leaseRelease => exact h.stirs (releaseLease_flagsGained p s).stirs
    | slotStop n => exact h.stirs (stopNow_effect n s).units.stirs
    | slotRemove n => exact h.stirs (removeSlot_effect n s).units.stirs
    | standinDetach => exact h.stirs ((State.raise_flagsGained _ _ _).stirs.after rfl)
    | lineOn => exact h.stirs (startLine_stirs s)
    | lineOff => exact h.stirs (turnLineOff_stirs s)
    | lineResync => exact h.stirs ((startLine_stirs _).after (by simp))
    | _ => exact h.stirs (.of_ports (by simp))
  event := by
    intro s t h done
    cases done with
    | receive r => exact h.stirs (receive_stirs r s)
    | begin c => exact h.stirs (beginAttempt_stirs c s)
    | sent r => exact h.stirs (endSent_stirs r s)
    | failed r => exact h.stirs (endError_stirs r s)
    | silence => exact h.stirs (silenceExpiry_stirs s)
    | detach p cause => exact h.teardown p cause
    | wakeTimer p =>
      refine WakeSafe.stirs (h.modUnit ?_) (present_stirs _ _ _ _)
      obtain ⟨presence, -, rest⟩ := h p
      exact ⟨presence, nofun, rest⟩
    | slot n => exact h.stirs (expire_effect n s).units.stirs
    | latch => exact h.stirs (setLatch_stirs s)
    | tick => intro q; rw [advance_unit]; exact (h q).tick
    | load image i =>
      refine WakeSafe.stirs (fun q => ?_) (installImage_stirs i s)
      rw [Image.installed_unit]; exact h q
    | loadFails => intro q; rw [installBuiltIn_unit]; exact h q
    | resetEnd kind pins =>
      rw [loadDecision_resetValues]
      intro q
      exact (resetValues_unit kind pins s q).symm ▸ PortUnit.sound_atReset _ _
    | _ => exact h.stirs (.of_ports (by simp))

/-- Settles O55: a port that leaves ACTIVE has released the lease; a cause is taken from DOZING alone, and every entry to a
port state starts and stops the timers of that state. -/
theorem portsStaySafe : Obligations.PortsStaySafe := ⟨leaseSafe_kept.step, wakeSafe_kept.step⟩

end Sys2Proof.Machine

/-! PROOF. What the operations over the slots do to each slot: a rule that the small updates of a slot follow, every operation
follows (06; 07). -/

namespace Sys2Proof.Machine

/-! ## Slot by slot -/

/-- Every live slot of `t` comes from the slot of `s` with its number, as `R` allows; there are as many slots. -/
structure SlotsBy (R : Slot → Slot → Prop) (s t : State) : Prop where
  length : t.slots.length = s.slots.length
  slot : ∀ {n x}, t.slot n = some x → ∃ y, s.slot n = some y ∧ R y x

/-- The small updates of a slot follow `R`: a due entry that goes or counts an attempt, a stop, a stand-in that goes or
takes over. -/
structure SlotRule (R : Slot → Slot → Prop) : Prop where
  refl : ∀ sl, R sl sl
  trans : ∀ {x y z}, R x y → R y z → R x z
  withdraws : ∀ sl : Slot, R sl { sl with due := none }
  sends : ∀ (sl : Slot) (payload : List Byte), R sl { sl with due := none, lastSent := some payload }
  counts : ∀ (sl : Slot) (d : DueEntry), d.attempts < Config.attemptLimit → R sl { sl with due := some d } ∨ sl.due = none
  stops : ∀ sl : Slot, R sl { sl with state := .stopped, nextExpiry := none }
  uncovers : ∀ sl : Slot, R sl { sl with standIn := none }
  takesOver : ∀ (sl : Slot) (si : StandIn), sl.standIn = some si → R sl (sl.takenOver si)

/-- The small updates of an expiry and of a publication follow `R` too. -/
structure ExpiryRule (R : Slot → Slot → Prop) : Prop extends SlotRule R where
  publishes : ∀ (sl : Slot) (payload : List Byte) (stamp : Stamp) (candidacy : Nat),
    R sl { sl with due := some ⟨payload, stamp, 0, candidacy⟩ }
  overruns : ∀ sl : Slot, R sl { sl with overruns := saturate sl.overruns }
  takesPeriod : ∀ sl : Slot, R sl sl.takePeriod
  refreshes : ∀ (sl : Slot) (payload : List Byte), R sl { sl with active := payload, pendingPayload := none }
  endsRuns : ∀ sl : Slot, R sl sl.endRuns
  stales : ∀ sl : Slot, R sl { sl with staleRun := saturate sl.staleRun }
  covers : ∀ (sl : Slot) (si : StandIn), sl.standIn = some si → si.coveredRun + 1 < sl.takeoverAfter →
    R sl { sl with standIn := some { si with coveredRun := si.coveredRun + 1 } }
  finishes : ∀ sl : Slot, R sl sl.finishExpiry

section
variable {R : Slot → Slot → Prop}

theorem SlotRule.by_of_slots (rule : SlotRule R) {s t : State} (slots : t.slots = s.slots) : SlotsBy R s t :=
  ⟨by rw [slots], fun {n x} live => ⟨x, by rwa [State.slot, slots] at live, rule.refl x⟩⟩

theorem SlotRule.by_trans (rule : SlotRule R) {s t u : State} (h : SlotsBy R s t) (k : SlotsBy R t u) : SlotsBy R s u :=
  ⟨k.length.trans h.length, fun live => by
    obtain ⟨y, mid, ry⟩ := k.slot live
    obtain ⟨z, start, rz⟩ := h.slot mid
    exact ⟨z, start, rule.trans rz ry⟩⟩

/-- A step that leaves the slots may come before. -/
theorem SlotsBy.after {s t u : State} (h : SlotsBy R t u) (slots : t.slots = s.slots) : SlotsBy R s u :=
  ⟨h.length.trans (by rw [slots]), fun live => by
    obtain ⟨y, mid, ry⟩ := h.slot live
    exact ⟨y, by rwa [State.slot, slots] at mid, ry⟩⟩

/-- A step that leaves the slots may come behind. -/
theorem SlotsBy.before {s t u : State} (h : SlotsBy R s t) (slots : u.slots = t.slots) : SlotsBy R s u :=
  ⟨(by rw [slots] : u.slots.length = t.slots.length).trans h.length, fun live => h.slot (by rwa [State.slot, slots] at live)⟩

/-- One slot replaced. -/
theorem SlotRule.by_setSlot (rule : SlotRule R) {s : State} {n : Nat} {sl x : Slot} (live : s.slot n = some sl)
    (r : R sl x) : SlotsBy R s (s.setSlot n (some x)) := by
  refine ⟨by simp, fun {m y} found => ?_⟩
  by_cases same : m = n
  · subst same
    rw [State.setSlot_slot_same (State.slot_lt live)] at found
    obtain rfl := Option.some.inj found
    exact ⟨sl, live, r⟩
  · rw [State.setSlot_slot_ne s _ same] at found
    exact ⟨y, found, rule.refl y⟩

/-- One slot freed. -/
theorem SlotRule.by_free (rule : SlotRule R) {s : State} {n : Nat} (inside : n < s.slots.length) :
    SlotsBy R s (s.setSlot n none) := by
  refine ⟨by simp, fun {m y} found => ?_⟩
  by_cases same : m = n
  · subst same
    rw [State.setSlot_slot_same inside] at found
    simp at found
  · rw [State.setSlot_slot_ne s _ same] at found
    exact ⟨y, found, rule.refl y⟩

theorem SlotRule.by_modSlot (rule : SlotRule R) {f : Slot → Slot} {n : Nat} {s : State}
    (r : ∀ sl, s.slot n = some sl → R sl (f sl)) : SlotsBy R s (s.modSlot n f) := by
  cases live : s.slot n with
  | none => rw [State.modSlot_of_none live]; exact rule.by_of_slots rfl
  | some sl => rw [State.modSlot_of_some live]; exact rule.by_setSlot live (r sl live)

theorem SlotsBy.of_map {f : Slot → Slot} {s t : State} (slots : t.slots = s.slots.map (Option.map f))
    (r : ∀ sl, R sl (f sl)) : SlotsBy R s t := by
  refine ⟨by rw [slots, List.length_map], fun {n x} live => ?_⟩
  have found : t.slot n = (s.slot n).map f := by
    rw [← s.mapSlots_slot f n]
    simp only [State.slot, slots]
  rw [found, Option.map_eq_some_iff] at live
  obtain ⟨y, here, rfl⟩ := live
  exact ⟨y, here, r y⟩

theorem SlotRule.by_forSlots (rule : SlotRule R) {f : Nat → State → State} (h : ∀ n t, SlotsBy R t (f n t)) (s : State) :
    SlotsBy R s (forSlots f s) :=
  forSlots_keeps (I := SlotsBy R s) (fun n t ht => rule.by_trans ht (h n t)) (rule.by_of_slots rfl)

/-! ## Withdrawals, outcomes and stops -/

theorem SlotRule.withdrawDue (rule : SlotRule R) (n : Nat) (s : State) : SlotsBy R s (withdrawDue n s) :=
  (rule.by_modSlot fun sl _ => rule.withdraws sl).after (cut_slots _ s)

theorem SlotRule.dueSent (rule : SlotRule R) (n : Nat) (s : State) : SlotsBy R s (dueSent n s) :=
  rule.by_modSlot fun sl _ => by
    split
    · exact rule.sends sl _
    · exact rule.refl sl

theorem SlotRule.dueError (rule : SlotRule R) (n : Nat) (s : State) : SlotsBy R s (dueError n s) := by
  simp only [Machine.dueError]
  split
  · exact rule.by_of_slots rfl
  · next sl live =>
    split
    · exact rule.by_of_slots rfl
    · next d stands =>
      split
      · next more =>
        obtain r | gone := rule.counts sl { d with attempts := d.attempts + 1 } more
        · exact rule.by_setSlot live r
        · simp [gone] at stands
      · exact (rule.by_setSlot live (rule.withdraws sl)).before rfl

theorem SlotRule.dueAborted (rule : SlotRule R) (n : Nat) (s : State) : SlotsBy R s (dueAborted n s) :=
  rule.by_modSlot fun sl _ => rule.withdraws sl

theorem SlotRule.stopNow (rule : SlotRule R) (n : Nat) (s : State) : SlotsBy R s (stopNow n s) :=
  rule.by_trans (rule.withdrawDue n s) (rule.by_modSlot fun sl _ => rule.stops sl)

theorem SlotRule.removeSlot (rule : SlotRule R) (n : Nat) (s : State) : SlotsBy R s (removeSlot n s) := by
  simp only [Machine.removeSlot]
  split
  · exact rule.by_of_slots rfl
  · next sl live =>
    have inside : n < (Machine.withdrawDue n s).slots.length := by
      rw [(withdrawDue_effect n s).length]; exact State.slot_lt live
    have freed := rule.by_trans (rule.withdrawDue n s) (rule.by_free inside)
    split
    · exact freed.before rfl
    · exact freed

theorem SlotRule.disposeSlot (rule : SlotRule R) (p : Port) (n : Nat) (s : State) : SlotsBy R s (disposeSlot p n s) := by
  simp only [Machine.disposeSlot]
  split
  · exact rule.by_of_slots rfl
  · next sl live =>
    split
    · split
      · next si covered => exact (rule.by_setSlot live (rule.takesOver sl si covered)).before rfl
      · exact rule.removeSlot n s
    · exact rule.by_of_slots rfl

theorem SlotRule.dropStandIn (rule : SlotRule R) (p : Port) (n : Nat) (s : State) : SlotsBy R s (dropStandIn p n s) := by
  simp only [Machine.dropStandIn]
  split
  · exact rule.by_of_slots rfl
  · next sl live =>
    split
    · exact rule.by_of_slots rfl
    · split
      · exact (rule.by_setSlot live (rule.uncovers sl)).before rfl
      · exact rule.by_of_slots rfl

theorem SlotRule.released (rule : SlotRule R) (p : Port) (s : State) : SlotsBy R s (released p s) := by
  have cleared : SlotsBy R s (freeRoutes p (clearRx p (clearTx p (releaseLease p s)))) :=
    rule.by_of_slots (by simp)
  exact rule.by_trans (rule.by_trans cleared (rule.by_forSlots (rule.disposeSlot p) _))
    (rule.by_forSlots (rule.dropStandIn p) _)

theorem SlotRule.teardown (rule : SlotRule R) (p : Port) (cause : DetachCause) (s : State) :
    SlotsBy R s (teardown p cause s) := by
  rw [teardown_eq]
  exact (rule.released p s).before (State.modUnit_slots ..)

theorem SlotRule.reportSent (rule : SlotRule R) (src : Source) (s : State) : SlotsBy R s (reportSent src s) := by
  cases src with
  | queueHead p => exact rule.by_of_slots (headSent_slots p s)
  | dueEntry n => exact rule.dueSent n s
  | none => exact rule.by_of_slots rfl

theorem SlotRule.reportError (rule : SlotRule R) (src : Source) (s : State) : SlotsBy R s (reportError src s) := by
  cases src with
  | queueHead p => exact rule.by_of_slots (headError_slots p s)
  | dueEntry n => exact rule.dueError n s
  | none => exact rule.by_of_slots rfl

theorem SlotRule.abortAttempt (rule : SlotRule R) (s : State) : SlotsBy R s (abortAttempt s) := by
  simp only [Machine.abortAttempt]
  split
  · next r _ =>
    cases source : r.source with
    | dueEntry n => exact (rule.dueAborted n _).after rfl
    | queueHead p => exact rule.by_of_slots rfl
    | none => exact rule.by_of_slots rfl
  · exact rule.by_of_slots rfl

theorem SlotRule.turnLineOff (rule : SlotRule R) (s : State) : SlotsBy R s (turnLineOff s) := by
  simp only [Machine.turnLineOff]
  split
  · exact rule.by_of_slots rfl
  · exact (rule.abortAttempt s).before (by simp)

theorem SlotRule.endError (rule : SlotRule R) (r : InFlight) (s : State) : SlotsBy R s (endError r s) := by
  simp only [Machine.endError]
  refine SlotsBy.before (SlotsBy.after (rule.reportError r.source _) ?_) (checkDegraded_slots _)
  exact State.modLine_slots ..

/-! ## Publications and expiries -/

theorem ExpiryRule.publish (rule : ExpiryRule R) (n : Nat) (payload : List Byte) (s : State) :
    SlotsBy R s (publish n payload s) := by
  simp only [Machine.publish]
  split
  · exact rule.by_of_slots rfl
  · next sl live =>
    have entered := rule.publishes sl payload s.stamp s.nextCandidacy
    split
    · exact (rule.by_setSlot live entered).before rfl
    · have replaced : SlotsBy R (cut (.dueEntry n) s) _ :=
        rule.by_setSlot (by rwa [cut_slot]) (rule.trans entered (rule.overruns _))
      exact (replaced.after (cut_slots _ s)).before rfl

variable {n : Nat} {sl y : Slot} {s : State}

theorem ExpiryRule.cover (rule : ExpiryRule R) {si : StandIn} (live : s.slot n = some y) (r : R y sl)
    (covered : sl.standIn = some si) : SlotsBy R s (cover n sl si s) := by
  simp only [Machine.cover]
  split
  · have used : SlotsBy R (s.raise si.port .standinUsed) _ :=
      rule.by_setSlot live (rule.trans r (rule.takesOver sl si covered))
    exact rule.by_trans ((used.after (State.raise_slots ..)).before (by simp)) (rule.publish _ _ _)
  · next inside =>
    have counted : SlotsBy R (s.raise si.port .standinUsed) _ :=
      rule.by_setSlot live (rule.trans r (rule.covers sl si covered (Nat.lt_of_not_le inside)))
    exact rule.by_trans (counted.after rfl) (rule.publish _ _ _)

theorem ExpiryRule.staleExpiry (rule : ExpiryRule R) (live : s.slot n = some y) (r : R y sl) :
    SlotsBy R s (staleExpiry n sl s) := by
  have stale := rule.trans r (rule.stales sl)
  have counted := (rule.by_setSlot live stale).before (u := (s.setSlot n _).raise sl.owner .slotStale) rfl
  simp only [Machine.staleExpiry]
  split
  · exact counted
  · next si covered =>
    refine rule.by_trans counted (rule.cover ?_ (rule.refl _) covered)
    rw [State.raise_slot]
    exact State.setSlot_slot_same (State.slot_lt live) _

theorem ExpiryRule.judgeExpiry (rule : ExpiryRule R) (live : s.slot n = some y) (r : R y sl) :
    SlotsBy R s (judgeExpiry n sl s) := by
  have ended := rule.trans r (rule.endsRuns sl)
  simp only [Machine.judgeExpiry]
  split
  · exact rule.by_trans (rule.by_setSlot live (rule.trans ended (rule.refreshes sl.endRuns _))) (rule.publish _ _ _)
  · split
    · exact rule.staleExpiry live r
    · exact rule.by_trans (rule.by_setSlot live ended) (rule.publish _ _ _)

theorem ExpiryRule.expire (rule : ExpiryRule R) (n : Nat) (s : State) : SlotsBy R s (expire n s) := by
  simp only [Machine.expire]
  split
  · exact rule.by_of_slots rfl
  · next sl live =>
    exact rule.by_trans (rule.judgeExpiry live (rule.takesPeriod sl)) (rule.by_modSlot fun x _ => rule.finishes x)

end

/-- A query answer is a publication of a RUNNING or FINISHING slot (R113). -/
theorem answerQuery_cases (l : Label) (s : State) :
    answerQuery l s = s ∨
      ∃ n sl, s.slot n = some sl ∧ sl.state.runs = true ∧ sl.due = none ∧ answerQuery l s = publish n sl.active s := by
  simp only [answerQuery]
  split
  · exact .inl rfl
  · next n _ =>
    split
    · exact .inl rfl
    · next sl live =>
      split
      · next answers =>
        simp only [Slot.answers, Bool.and_eq_true, Bool.or_eq_true, beq_iff_eq, Option.isNone_iff_eq_none] at answers
        obtain ⟨⟨⟨-, runs⟩, -⟩, free⟩ := answers
        exact .inr ⟨n, sl, live, by obtain run | finish := runs <;> simp [*, SlotState.runs], free, rfl⟩
      · exact .inl rfl

/-- The offer before the query answer: the table, the wake causes and the detector (R18). -/
def offered (o : Offer) (s : State) : State :=
  { wakePorts o (o.decisions s) s.detector (admitGroup (o.decisions s).a.copy (o.decisions s).b.copy (o.decisions s).c.copy
      (o.decisions s).d.copy s) with detector := o.remember s.detector }

@[simp] theorem offered_slots (o : Offer) (s : State) : (offered o s).slots = s.slots :=
  (wakePorts_slots ..).trans (admitGroup_slots ..)

/-- Of an offer, the query answer alone acts on the slots: a publication of a RUNNING or FINISHING slot (R19, R113). -/
theorem offer_cases (o : Offer) (answer : Bool) (s : State) :
    offer o answer s = offered o s ∨
      ∃ n sl, s.slot n = some sl ∧ sl.state.runs = true ∧ offer o answer s = publish n sl.active (offered o s) := by
  have split : offer o answer s =
      if answer && o.telegram.kind == .query then answerQuery o.telegram.label (offered o s) else offered o s := rfl
  rw [split]
  split
  · obtain same | ⟨n, sl, live, runs, -, answered⟩ := answerQuery_cases o.telegram.label (offered o s)
    · exact .inl same
    · exact .inr ⟨n, sl, by rwa [State.slot, offered_slots] at live, runs, answered⟩
  · exact .inl rfl

end Sys2Proof.Machine

/-! PROOF. The slots under a teardown, slot by slot (07, R128, R129; 09, R160 steps 5 and 6). -/

namespace Sys2Proof.Machine

/-! ## One slot of an operation over every slot -/

/-- An operation over every slot acts on slot `n` once; around that, it does what its steps on other slots do. -/
theorem forSlots_around {E : State → State → Prop} {f : Nat → State → State} {n : Nat} (inside : n < Config.slotCount)
    (refl : ∀ s, E s s) (trans : ∀ {s t u}, E s t → E t u → E s u) (others : ∀ m t, m ≠ n → E t (f m t)) (s : State) :
    ∃ t, E s t ∧ E (f n t) (forSlots f s) := by
  have fold (l : List Nat) (absent : n ∉ l) (t : State) : E t (l.foldl (fun u m => f m u) t) := by
    induction l generalizing t with
    | nil => exact refl t
    | cons m l ih =>
      rw [List.mem_cons, not_or] at absent
      exact trans (others m t (Ne.symm absent.1)) (ih absent.2 _)
  obtain ⟨front, back, parts⟩ := List.append_of_mem (List.mem_range.2 inside)
  have distinct := parts ▸ List.nodup_range (n := Config.slotCount)
  obtain ⟨-, tail, apart⟩ := List.nodup_append.1 distinct
  refine ⟨front.foldl (fun u m => f m u) s, fold front (fun mem => apart n mem n List.mem_cons_self rfl) s, ?_⟩
  rw [forSlots, parts, List.foldl_append, List.foldl_cons]
  exact fold back (List.nodup_cons.1 tail).1 _

/-- Slot `n` stays as it is, and ports gain flags alone. -/
structure Aside (n : Nat) (s t : State) : Prop where
  slot : t.slot n = s.slot n
  units : FlagsGained s t

theorem Aside.refl (n : Nat) (s : State) : Aside n s s := ⟨rfl, .refl s⟩

theorem Aside.trans {n : Nat} {s t u : State} (h : Aside n s t) (k : Aside n t u) : Aside n s u :=
  ⟨k.slot.trans h.slot, h.units.trans k.units⟩

theorem removeSlot_slot_ne {m n : Nat} (other : n ≠ m) (s : State) : (removeSlot m s).slot n = s.slot n := by
  have withdrawn : (withdrawDue m s).slot n = s.slot n := by
    simp only [withdrawDue, State.modSlot]
    split
    · rw [State.setSlot_slot_ne _ _ other, cut_slot]
    · exact cut_slot ..
  simp only [removeSlot]
  split
  · rfl
  · split <;> simp [State.setSlot_slot_ne _ _ other, withdrawn]

theorem removeSlot_slot_same (n : Nat) (s : State) : (removeSlot n s).slot n = none := by
  simp only [removeSlot]
  split
  · next free => exact free
  · next sl live =>
    have inside : n < (withdrawDue n s).slots.length := by
      rw [(withdrawDue_effect n s).length]; exact State.slot_lt live
    split <;> simp [State.setSlot_slot_same inside]

/-! ## The slots of the port that is torn down, and its stand-ins -/

/-- What step 5 makes of a live slot: one of `p` passes to its stand-in, or goes (R128; 06, R117). -/
def Slot.disposed (p : Port) (sl : Slot) : Option Slot := if sl.owner = p then sl.standIn.map sl.takenOver else some sl

/-- What step 6 makes of a live slot: a stand-in of `p` goes (R129). -/
def Slot.uncovered (p : Port) (sl : Slot) : Slot :=
  if ∃ si, sl.standIn = some si ∧ si.port = p then { sl with standIn := none } else sl

theorem disposeSlot_slot_same (p : Port) (n : Nat) (s : State) :
    (disposeSlot p n s).slot n = (s.slot n).bind (Slot.disposed p) := by
  simp only [disposeSlot]
  split
  · next free => rw [free]; rfl
  · next sl live =>
    rw [live, Option.bind_some, Slot.disposed]
    split
    · split
      · next si covered => rw [covered]; exact State.setSlot_slot_same (State.slot_lt live) _
      · next bare => rw [bare, removeSlot_slot_same]; rfl
    · exact live

theorem disposeSlot_aside {p : Port} {m n : Nat} (other : m ≠ n) (s : State) : Aside n s (disposeSlot p m s) := by
  refine ⟨?_, (disposeSlot_effect p m s).units⟩
  simp only [disposeSlot]
  split
  · rfl
  · split
    · split
      · exact State.setSlot_slot_ne _ _ (Ne.symm other)
      · exact removeSlot_slot_ne (Ne.symm other) s
    · rfl

theorem dropStandIn_slot_same (p : Port) (n : Nat) (s : State) :
    (dropStandIn p n s).slot n = (s.slot n).map (Slot.uncovered p) := by
  simp only [dropStandIn]
  split
  · next free => rw [free]; rfl
  · next sl live =>
    rw [live, Option.map_some, Slot.uncovered]
    split
    · next bare => simp [bare, live]
    · next si covered =>
      simp only [covered, Option.some.injEq, exists_eq_left']
      split
      · exact State.setSlot_slot_same (State.slot_lt live) _
      · exact live

theorem dropStandIn_aside {p : Port} {m n : Nat} (other : m ≠ n) (s : State) : Aside n s (dropStandIn p m s) := by
  refine ⟨?_, (dropStandIn_effect p m s).units⟩
  simp only [dropStandIn]
  split
  · rfl
  · split
    · rfl
    · split
      · exact State.setSlot_slot_ne _ _ (Ne.symm other)
      · rfl

theorem State.slot_none_of_le {s : State} {n : Nat} (above : s.slots.length ≤ n) : s.slot n = none := by
  simp [State.slot, List.getElem?_eq_none above]

/-- An operation over every slot that acts on slot `n` by `g`, and on no other slot, acts so on every slot. -/
theorem forSlots_slot {f : Nat → State → State} {g : Option Slot → Option Slot} (g_none : g none = none)
    (same : ∀ n t, (f n t).slot n = g (t.slot n)) (others : ∀ m n t, m ≠ n → (f m t).slot n = t.slot n)
    (length : ∀ n t, (f n t).slots.length = t.slots.length) {s : State} (full : s.slots.length = Config.slotCount)
    (n : Nat) : (forSlots f s).slot n = g (s.slot n) := by
  by_cases inside : n < Config.slotCount
  · obtain ⟨t, before, behind⟩ := forSlots_around (E := fun s t => t.slot n = s.slot n) (f := f) inside (fun _ => rfl)
      (fun h k => k.trans h) (fun m t other => others m n t other) s
    rw [behind, same, before]
  · have all : (forSlots f s).slots.length = s.slots.length :=
      forSlots_keeps (I := fun t => t.slots.length = s.slots.length) (fun m t h => (length m t).trans h) rfl
    rw [State.slot_none_of_le (by omega), State.slot_none_of_le (by omega), g_none]

theorem disposed_slot (p : Port) {s : State} (full : s.slots.length = Config.slotCount) (n : Nat) :
    (forSlots (disposeSlot p) s).slot n = (s.slot n).bind (Slot.disposed p) :=
  forSlots_slot (g := (Option.bind · (Slot.disposed p))) rfl (disposeSlot_slot_same p)
    (fun _ _ t other => (disposeSlot_aside other t).slot) (fun n t => (disposeSlot_effect p n t).length) full n

theorem uncovered_slot (p : Port) {s : State} (full : s.slots.length = Config.slotCount) (n : Nat) :
    (forSlots (dropStandIn p) s).slot n = (s.slot n).map (Slot.uncovered p) :=
  forSlots_slot (g := Option.map (Slot.uncovered p)) rfl (dropStandIn_slot_same p)
    (fun _ _ t other => (dropStandIn_aside other t).slot) (fun n t => (dropStandIn_effect p n t).length) full n

/-- The slots before step 5 are those the teardown found. -/
theorem cleared_slots (p : Port) (s : State) :
    (freeRoutes p (clearRx p (clearTx p (releaseLease p s)))).slots = s.slots := by simp

/-- Every slot after the teardown of `p`. -/
theorem released_slot (p : Port) {s : State} (full : s.slots.length = Config.slotCount) (n : Nat) :
    (released p s).slot n = ((s.slot n).bind (Slot.disposed p)).map (Slot.uncovered p) := by
  have cleared := (congrArg List.length (cleared_slots p s)).trans full
  have length := (forSlots_effect (disposeSlot_effect p) (freeRoutes p (clearRx p (clearTx p (releaseLease p s))))).length
  rw [released, uncovered_slot p (length.trans cleared), disposed_slot p cleared, State.slot, cleared_slots]
  rfl

theorem teardown_slot (p : Port) (cause : DetachCause) {s : State} (full : s.slots.length = Config.slotCount) (n : Nat) :
    (teardown p cause s).slot n = ((s.slot n).bind (Slot.disposed p)).map (Slot.uncovered p) := by
  rw [← released_slot p full]
  simp only [State.slot, teardown_eq, State.modUnit_slots]

end Sys2Proof.Machine

/-! PROOF. What a DETACHED port is without, at every step (07, R120; 09, R160, R162). -/

namespace Sys2Proof.Machine

/-! ## Claims on a slot -/

/-- Port `p` owns the slot or stands in for it. -/
def Slot.Claims (sl : Slot) (p : Port) : Prop := sl.owner = p ∨ ∃ si, sl.standIn = some si ∧ si.port = p

/-- No stand-in belongs to the slot's owner. -/
def Slot.Apart (sl : Slot) : Prop := ∀ si, sl.standIn = some si → si.port ≠ sl.owner

/-- `x` is claimed by no port that does not claim `y`, and stays apart. -/
def Slot.Narrower (y x : Slot) : Prop := (∀ p, x.Claims p → y.Claims p) ∧ (y.Apart → x.Apart)

theorem Slot.Narrower.of_same {y x : Slot} (owner : x.owner = y.owner) (standIn : x.standIn = y.standIn) :
    y.Narrower x := by
  unfold Slot.Narrower Slot.Claims Slot.Apart
  rw [owner, standIn]
  exact ⟨fun _ => id, id⟩

theorem Slot.Narrower.of_uncovered {y x : Slot} (owner : x.owner = y.owner) (standIn : x.standIn = none) :
    y.Narrower x := by
  refine ⟨fun p => ?_, fun _ si covered => by simp [standIn] at covered⟩
  rintro (own | ⟨si, covered, -⟩)
  · exact .inl (owner ▸ own)
  · simp [standIn] at covered

/-- A takeover takes the claims of the stand-in alone. -/
theorem Slot.narrower_takenOver {sl : Slot} {si : StandIn} (covered : sl.standIn = some si) :
    sl.Narrower (sl.takenOver si) := by
  refine ⟨fun p => ?_, nofun⟩
  rintro (own | ⟨_, none_, -⟩)
  · exact .inr ⟨si, covered, own⟩
  · exact absurd none_ nofun

/-- The slot with its stand-in's payload or run changed. -/
theorem Slot.narrower_standIn {sl : Slot} {si sj : StandIn} (covered : sl.standIn = some si) (port : sj.port = si.port) :
    sl.Narrower { sl with standIn := some sj } := by
  refine ⟨fun p => ?_, fun apart sk same => ?_⟩
  · rintro (own | ⟨sk, same, stands⟩)
    · exact .inl own
    · obtain rfl := Option.some.inj same
      exact .inr ⟨si, covered, port ▸ stands⟩
  · obtain rfl := Option.some.inj same
    exact port ▸ apart si covered

@[simp] theorem Slot.finishExpiry_owner (sl : Slot) : sl.finishExpiry.owner = sl.owner := by
  unfold Slot.finishExpiry; split <;> rfl

@[simp] theorem Slot.finishExpiry_standIn (sl : Slot) : sl.finishExpiry.standIn = sl.standIn := by
  unfold Slot.finishExpiry; split <;> rfl

@[simp] theorem Slot.takePeriod_owner (sl : Slot) : sl.takePeriod.owner = sl.owner := rfl

@[simp] theorem Slot.takePeriod_standIn (sl : Slot) : sl.takePeriod.standIn = sl.standIn := rfl

theorem Slot.narrower_endRuns (sl : Slot) : sl.Narrower sl.endRuns := by
  cases covered : sl.standIn with
  | none => exact .of_same rfl (by simp [Slot.endRuns, covered])
  | some si =>
    have ended := Slot.narrower_standIn (sj := { si with coveredRun := 0 }) covered rfl
    refine ⟨fun p claims => ended.1 p ?_, fun apart => ?_⟩
    · simpa [Slot.Claims, Slot.endRuns, covered] using claims
    · simpa [Slot.Apart, Slot.endRuns, covered] using ended.2 apart

/-- No expiry, outcome, stop or teardown gives a port a claim it had not. -/
theorem narrower_rule : ExpiryRule Slot.Narrower where
  refl _ := ⟨fun _ => id, id⟩
  trans h k := ⟨fun p claims => h.1 p (k.1 p claims), fun apart => k.2 (h.2 apart)⟩
  withdraws _ := .of_same rfl rfl
  sends _ _ := .of_same rfl rfl
  counts _ _ _ := .inl (.of_same rfl rfl)
  stops _ := .of_same rfl rfl
  uncovers _ := .of_uncovered rfl rfl
  takesOver _ _ covered := Slot.narrower_takenOver covered
  publishes _ _ _ _ := .of_same rfl rfl
  overruns _ := .of_same rfl rfl
  takesPeriod sl := .of_same sl.takePeriod_owner sl.takePeriod_standIn
  refreshes _ _ := .of_same rfl rfl
  endsRuns := Slot.narrower_endRuns
  stales _ := .of_same rfl rfl
  covers _ _ covered _ := Slot.narrower_standIn covered rfl
  finishes sl := .of_same sl.finishExpiry_owner sl.finishExpiry_standIn

/-! ## The invariant by slot number -/

theorem State.mem_slots {s : State} {sl : Slot} : some sl ∈ s.slots ↔ ∃ n, s.slot n = some sl := by
  simp only [List.mem_iff_getElem?, State.slot_eq_some]

/-- Port `p` is without records, entries, flags, route entries, slots, stand-ins and the lease. -/
structure Bare (s : State) (p : Port) : Prop where
  lease : s.line.lease ≠ some p
  rx : (s.rx.get p).queue = []
  tx : (s.tx.get p).entries = []
  flags : (s.unit p).flags = 0
  routes : ∀ e, some e ∈ s.routes → e.owner ≠ p
  slots : ∀ {n sl}, s.slot n = some sl → ¬sl.Claims p

theorem not_claims_iff {sl : Slot} {p : Port} :
    ¬sl.Claims p ↔ sl.owner ≠ p ∧ ∀ si, sl.standIn = some si → si.port ≠ p := by
  simp [Slot.Claims]

theorem bare_iff {s : State} {p : Port} :
    Bare s p ↔ s.line.lease ≠ some p ∧ (s.rx.get p).queue = [] ∧ (s.tx.get p).entries = [] ∧ (s.unit p).flags = 0 ∧
      (∀ e, some e ∈ s.routes → e.owner ≠ p) ∧
      ∀ sl, some sl ∈ s.slots → sl.owner ≠ p ∧ ∀ si, sl.standIn = some si → si.port ≠ p := by
  constructor
  · rintro ⟨lease, rx, tx, flags, routes, slots⟩
    refine ⟨lease, rx, tx, flags, routes, fun sl mem => ?_⟩
    obtain ⟨n, live⟩ := State.mem_slots.1 mem
    exact not_claims_iff.1 (slots live)
  · rintro ⟨lease, rx, tx, flags, routes, slots⟩
    exact ⟨lease, rx, tx, flags, routes, fun live => not_claims_iff.2 (slots _ (State.slot_mem live))⟩

theorem ownershipSafe_iff (s : State) :
    OwnershipSafe s ↔ s.slots.length = Config.slotCount ∧ (∀ p, (s.unit p).state = .detached → Bare s p) ∧
      ∀ n sl, s.slot n = some sl → sl.Apart := by
  simp only [OwnershipSafe, bare_iff]
  refine and_congr_right fun _ => and_congr_right fun _ => ⟨fun h n sl live => h sl (State.slot_mem live), fun h sl mem => ?_⟩
  obtain ⟨n, live⟩ := State.mem_slots.1 mem
  exact h n sl live

/-! ## What leaves DETACHED ports bare -/

/-- An operation detaches no port, gives a DETACHED one nothing, and sets no stand-in beside its own port. -/
structure Spares (s t : State) : Prop where
  state : ∀ {p}, (t.unit p).state = .detached → (s.unit p).state = .detached
  bare : ∀ {p}, (t.unit p).state = .detached → Bare s p → Bare t p
  length : t.slots.length = s.slots.length
  apart : (∀ n sl, s.slot n = some sl → sl.Apart) → ∀ n sl, t.slot n = some sl → sl.Apart

theorem OwnershipSafe.spares {s t : State} (h : OwnershipSafe s) (spares : Spares s t) : OwnershipSafe t := by
  obtain ⟨full, bare, apart⟩ := (ownershipSafe_iff s).1 h
  exact (ownershipSafe_iff t).2 ⟨spares.length.trans full,
    fun p detached => spares.bare detached (bare p (spares.state detached)), spares.apart apart⟩

theorem Spares.trans {s t u : State} (h : Spares s t) (k : Spares t u) : Spares s u :=
  ⟨fun detached => h.state (k.state detached), fun detached bare => k.bare detached (h.bare (k.state detached) bare),
    k.length.trans h.length, fun apart => k.apart (h.apart apart)⟩

/-- The parts of the state that a DETACHED port is bare in, one by one. -/
theorem Spares.of_parts {s t : State} (state : ∀ {p}, (t.unit p).state = .detached → (s.unit p).state = .detached)
    (flags : ∀ {p}, (t.unit p).state = .detached → (s.unit p).flags = 0 → (t.unit p).flags = 0)
    (lease : ∀ {p}, t.line.lease = some p → s.line.lease = some p)
    (rx : ∀ {p}, (s.unit p).state = .detached → (s.rx.get p).queue = [] → (t.rx.get p).queue = [])
    (tx : ∀ {p}, (s.tx.get p).entries = [] → (t.tx.get p).entries = [])
    (routes : ∀ {e : RouteEntry}, some e ∈ t.routes → some e ∈ s.routes) (slots : SlotsBy Slot.Narrower s t) :
    Spares s t where
  state := state
  length := slots.length
  bare detached bare :=
    { lease := fun holds => bare.lease (lease holds)
      rx := rx (state detached) bare.rx
      tx := tx bare.tx
      flags := flags detached bare.flags
      routes := fun e mem => bare.routes e (routes mem)
      slots := fun live claims => by
        obtain ⟨y, before, narrower⟩ := slots.slot live
        exact bare.slots before (narrower.1 _ claims) }
  apart apart n sl live := by
    obtain ⟨y, before, narrower⟩ := slots.slot live
    exact narrower.2 (apart n y before)

/-- Flags and wake causes go to no DETACHED port. -/
theorem Stirs.spares {s t : State} (stirs : Stirs s t) (slots : SlotsBy Slot.Narrower s t)
    (lease : t.line.lease = s.line.lease) (rx : ∀ {p}, (s.unit p).state = .detached → t.rx.get p = s.rx.get p)
    (tx : ∀ {p}, (s.tx.get p).entries = [] → (t.tx.get p).entries = []) (routes : t.routes = s.routes) : Spares s t := by
  have detached {p : Port} (h : (t.unit p).state = .detached) : (s.unit p).state = .detached := by
    by_contra other
    exact stirs.attached other h
  refine .of_parts detached (fun h clear => ?_) (fun h => lease ▸ h) (fun h empty => ?_) tx (fun h => routes ▸ h) slots
  · rw [stirs.detached (detached h)]; exact clear
  · rw [rx h]; exact empty

/-- The command writes the unit of its port, and leaves a DETACHED one without flags. -/
theorem Spares.modUnit (s : State) {p : Port} {f : PortUnit → PortUnit}
    (state : (f (s.unit p)).state = .detached → (s.unit p).state = .detached)
    (flags : (s.unit p).flags = 0 → (f (s.unit p)).flags = 0) : Spares s (s.modUnit p f) := by
  refine .of_parts (fun {q} h => ?_) (fun {q} _ clear => ?_) id (fun _ => id) id id (narrower_rule.by_of_slots rfl)
  · by_cases same : q = p
    · subst same; rw [State.modUnit_unit_same] at h; exact state h
    · rwa [State.modUnit_unit_ne _ _ _ same] at h
  · by_cases same : q = p
    · subst same; rw [State.modUnit_unit_same]; exact flags clear
    · rwa [State.modUnit_unit_ne _ _ _ same]

/-! ## The outcomes and the offers -/

theorem headSent_entries {p q : Port} {s : State} (empty : (s.tx.get q).entries = []) :
    ((headSent p s).tx.get q).entries = [] := by
  by_cases same : q = p
  · subst same; simp [headSent, empty]
  · simp only [headSent, removeHead]
    split
    · exact empty
    · split <;> simpa [same] using empty

theorem headError_entries {p q : Port} {s : State} (empty : (s.tx.get q).entries = []) :
    ((headError p s).tx.get q).entries = [] := by
  by_cases same : q = p
  · subst same; simp [headError, empty]
  · simp only [headError, removeHead]
    split
    · exact empty
    · split
      · simpa [same] using empty
      · split <;> simpa [same] using empty

theorem reportSent_entries (src : Source) {q : Port} {s : State} (empty : (s.tx.get q).entries = []) :
    ((reportSent src s).tx.get q).entries = [] := by
  cases src with
  | queueHead p => exact headSent_entries empty
  | dueEntry n => rw [reportSent, dueSent_tx]; exact empty
  | none => exact empty

theorem reportError_entries (src : Source) {q : Port} {s : State} (empty : (s.tx.get q).entries = []) :
    ((reportError src s).tx.get q).entries = [] := by
  cases src with
  | queueHead p => exact headError_entries empty
  | dueEntry n => rw [reportError, dueError_tx]; exact empty
  | none => exact empty

/-- Nothing is delivered to a DETACHED port (R43). -/
theorem decide_of_detached {s : State} {p : Port} (detached : (s.unit p).state = .detached) (o : Offer) :
    o.decide s p = Delivery.nothing := by
  unfold Offer.decide
  split
  · rfl
  · split
    · rfl
    · next n e _ =>
      rw [detached]
      cases act : e.action <;> simp [Offer.outcome, act]

@[simp] theorem admitOpt_none (p : Port) (s : State) : admitOpt p none s = s := rfl

theorem admitOpt_rx_ne {p q : Port} (other : q ≠ p) (r : Option RxRecord) (s : State) :
    (admitOpt p r s).rx.get q = s.rx.get q := by
  cases r with
  | none => rfl
  | some x => exact admitCopy_rx_ne other x s

/-- A port that is delivered no copy keeps its queue. -/
theorem offer_rx_of_no_copy {o : Offer} {s : State} {p : Port} (none_ : (o.decide s p).copy = none) (answer : Bool) :
    (offer o answer s).rx.get p = s.rx.get p := by
  rw [offer_rx, admitGroup]
  cases p <;> simp [none_, admitOpt_rx_ne]

theorem narrower_offer (o : Offer) (answer : Bool) (s : State) : SlotsBy Slot.Narrower s (offer o answer s) := by
  obtain same | ⟨n, sl, -, -, published⟩ := offer_cases o answer s
  · exact narrower_rule.by_of_slots (by rw [same, offered_slots])
  · rw [published]
    exact (narrower_rule.publish n sl.active (offered o s)).after (offered_slots o s)

theorem offer_spares (o : Offer) (answer : Bool) (s : State) : Spares s (offer o answer s) :=
  (offer_stirs o answer s).spares (narrower_offer o answer s) (by simp)
    (fun h => offer_rx_of_no_copy (by rw [decide_of_detached h]; rfl) answer) (fun empty => by rwa [offer_tx]) (by simp)

theorem reportSent_spares (src : Source) (s : State) : Spares s (reportSent src s) :=
  (reportSent_flagsGained src s).stirs.spares (narrower_rule.reportSent src s) (by simp) (fun _ => by simp)
    (reportSent_entries src) (by simp)

/-- An operation that leaves routes, queues and lease, and moves no claim on a slot to another port. -/
theorem Stirs.spares_slots {s t : State} (stirs : Stirs s t) (slots : SlotsBy Slot.Narrower s t)
    (lease : t.line.lease = s.line.lease) (rx : t.rx = s.rx) (tx : t.tx = s.tx) (routes : t.routes = s.routes) : Spares s t :=
  stirs.spares slots lease (fun _ => by rw [rx]) (fun h => by rwa [tx]) routes

theorem SlotEffect.spares {s t : State} (effect : SlotEffect s t) (slots : SlotsBy Slot.Narrower s t) (rx : t.rx = s.rx)
    (tx : t.tx = s.tx) (routes : t.routes = s.routes) : Spares s t :=
  effect.units.stirs.spares_slots slots effect.lease rx tx routes

theorem Stirs.spares_plain {s t : State} (stirs : Stirs s t) (slots : t.slots = s.slots)
    (lease : t.line.lease = s.line.lease) (rx : t.rx = s.rx) (tx : t.tx = s.tx) (routes : t.routes = s.routes) : Spares s t :=
  stirs.spares_slots (narrower_rule.by_of_slots slots) lease rx tx routes

/-- A part of the state that no clause speaks of has changed. -/
theorem Spares.of_same {s t : State} (ports : t.ports = s.ports) (slots : t.slots = s.slots)
    (lease : t.line.lease = s.line.lease) (rx : t.rx = s.rx) (tx : t.tx = s.tx) (routes : t.routes = s.routes) : Spares s t :=
  (Stirs.of_ports ports).spares_plain slots lease rx tx routes

theorem cleanReception_spares (s : State) : Spares s (cleanReception s) :=
  (cleanReception_stirs s).spares_plain (by simp) (cleanReception_lease s) (by simp) (by simp) (by simp)

theorem receive_spares (r : Reception) (s : State) : Spares s (receive r s) := by
  cases r with
  | clean t => exact (cleanReception_spares s).trans (offer_spares _ _ _)
  | codingError | formatError | checkError =>
    exact (receptionError_stirs s).spares_plain (by simp) (receptionError_lease s) (by simp) (by simp) (by simp)

theorem beginAttempt_spares (c : Candidate) (s : State) : Spares s (beginAttempt c s) := by
  unfold beginAttempt
  split
  · exact (offer_spares _ _ _).trans (reportSent_spares _ _)
  · exact .of_same rfl rfl rfl rfl rfl rfl

theorem endSent_spares (r : InFlight) (s : State) : Spares s (endSent r s) := by
  refine Spares.trans (t := s.modLine _) ?_ ((offer_spares _ _ _).trans (reportSent_spares _ _))
  exact .of_same rfl rfl (by simp) rfl rfl rfl

theorem endError_spares (r : InFlight) (s : State) : Spares s (endError r s) := by
  refine (endError_stirs r s).spares (narrower_rule.endError r s) (by simp [endError]) (fun _ => by simp) (fun empty => ?_)
    (by simp)
  rw [endError, checkDegraded_tx]
  exact reportError_entries _ empty

/-! ## The teardown -/

theorem Slot.disposed_narrower {p : Port} {sl x : Slot} (h : sl.disposed p = some x) : sl.Narrower x := by
  unfold Slot.disposed at h
  split at h
  · obtain ⟨si, covered, rfl⟩ := Option.map_eq_some_iff.1 h
    exact Slot.narrower_takenOver covered
  · obtain rfl := Option.some.inj h
    exact narrower_rule.refl sl

/-- A slot is no longer claimed by the port that is torn down. -/
theorem Slot.not_claims_torn {p : Port} {sl x : Slot} (apart : sl.Apart) (h : sl.disposed p = some x) :
    ¬(x.uncovered p).Claims p := by
  have foreign : x.owner ≠ p := by
    unfold Slot.disposed at h
    split at h
    · next own =>
      obtain ⟨si, covered, rfl⟩ := Option.map_eq_some_iff.1 h
      exact own ▸ apart si covered
    · next other =>
      obtain rfl := Option.some.inj h
      exact other
  unfold Slot.uncovered
  split
  · exact not_claims_iff.2 ⟨foreign, nofun⟩
  · next stands =>
    refine not_claims_iff.2 ⟨foreign, fun si covered same => stands ⟨si, covered, same⟩⟩

theorem OwnershipSafe.teardown {s : State} (h : OwnershipSafe s) (p : Port) (cause : DetachCause) :
    OwnershipSafe (teardown p cause s) := by
  obtain ⟨full, bare, apart⟩ := (ownershipSafe_iff s).1 h
  have slots := narrower_rule.teardown p cause s
  refine (ownershipSafe_iff _).2 ⟨slots.length.trans full, fun q detached => ?_, fun n sl live => ?_⟩
  · by_cases same : q = p
    · subst same
      refine ⟨?_, ?_, ?_, ?_, fun e mem => ?_, fun {n sl} live => ?_⟩
      · rw [teardown_lease]; split <;> simp_all
      · simp [teardown_rx]
      · simp [teardown_tx]
      · rw [teardown_unit_same]; rfl
      · rw [teardown_routes, freeRoutes_routes, List.mem_map] at mem
        obtain ⟨_, -, kept⟩ := mem
        exact (withoutOwner_eq_some.1 kept).2
      · rw [teardown_slot q cause full] at live
        obtain ⟨x, disposed, rfl⟩ := Option.map_eq_some_iff.1 live
        obtain ⟨y, before, disposed⟩ := Option.bind_eq_some_iff.1 disposed
        exact Slot.not_claims_torn (apart n y before) disposed
    · rw [teardown_unit_ne same, (released_flagsGained p s).state] at detached
      have was := bare q detached
      refine ⟨?_, ?_, ?_, ?_, fun e mem => ?_, fun {n sl} live claims => ?_⟩
      · rw [teardown_lease]
        split
        · nofun
        · exact was.lease
      · rw [teardown_rx, Quad.get_set, if_neg same]; exact was.rx
      · rw [teardown_tx, Quad.get_set, if_neg same]; exact was.tx
      · rw [teardown_unit_ne same, (released_flagsGained p s).stirs.detached detached]; exact was.flags
      · rw [teardown_routes, freeRoutes_routes, List.mem_map] at mem
        obtain ⟨x, mem, kept⟩ := mem
        exact was.routes e ((withoutOwner_eq_some.1 kept).1 ▸ mem)
      · obtain ⟨y, before, narrower⟩ := slots.slot live
        exact was.slots before (narrower.1 _ claims)
  · obtain ⟨y, before, narrower⟩ := slots.slot live
    exact narrower.2 (apart n y before)

theorem restoreDefaults_spares (p : Port) (s : State) : Spares s (restoreDefaults p s) := by
  refine .of_parts (fun {q} h => ?_) (fun {q} _ clear => ?_) (fun h => h) (fun {q} _ empty => ?_) (fun h => h) (fun h => h)
    (narrower_rule.by_of_slots rfl)
  · obtain ⟨_, _, unit⟩ := restoreDefaults_unit p q s
    rwa [unit] at h
  · obtain ⟨_, _, unit⟩ := restoreDefaults_unit p q s
    rwa [unit]
  · rw [restoreDefaults_rx, Quad.get_set]
    split
    · next same => subst same; exact empty
    · exact empty

/-! ## The commands that give a port something -/

/-- A slot set is claimed by ports that are not DETACHED or claimed the slot before. -/
theorem OwnershipSafe.setSlot {s : State} (h : OwnershipSafe s) (n : Nat) {x : Slot} (apart : x.Apart)
    (claimed : ∀ p, x.Claims p → (s.unit p).state ≠ .detached ∨ ∃ y, s.slot n = some y ∧ y.Claims p) :
    OwnershipSafe (s.setSlot n (some x)) := by
  obtain ⟨full, bare, aparts⟩ := (ownershipSafe_iff s).1 h
  have slots {m : Nat} {sl : Slot} (live : (s.setSlot n (some x)).slot m = some sl) : sl = x ∧ m = n ∨ s.slot m = some sl := by
    by_cases same : m = n
    · subst same
      have inside := State.slot_lt live
      rw [State.setSlot_slots, List.length_set] at inside
      rw [State.setSlot_slot_same inside] at live
      exact .inl ⟨(Option.some.inj live).symm, rfl⟩
    · exact .inr (by rwa [State.setSlot_slot_ne _ _ same] at live)
  refine (ownershipSafe_iff _).2 ⟨by simpa using full, fun p detached => ?_, fun m sl live => ?_⟩
  · have was := bare p detached
    refine ⟨was.lease, was.rx, was.tx, was.flags, was.routes, fun {m sl} live claims => ?_⟩
    obtain ⟨rfl, rfl⟩ | before := slots live
    · obtain attached | ⟨y, before, claims⟩ := claimed p claims
      · exact attached detached
      · exact was.slots before claims
    · exact was.slots before claims
  · obtain ⟨rfl, rfl⟩ | before := slots live
    · exact apart
    · exact aparts m sl before

/-- An operation gives its port something, and the port is not DETACHED. -/
theorem OwnershipSafe.give {s t : State} (h : OwnershipSafe s) {p : Port} (attached : (s.unit p).state ≠ .detached)
    (ports : t.ports = s.ports) (slots : t.slots = s.slots) (others : ∀ q, q ≠ p → Bare s q → Bare t q) :
    OwnershipSafe t := by
  have unit (q : Port) : t.unit q = s.unit q := by simp only [State.unit, ports]
  obtain ⟨full, bare, apart⟩ := (ownershipSafe_iff s).1 h
  refine (ownershipSafe_iff t).2 ⟨by rw [slots]; exact full, fun q detached => ?_, fun n sl live => ?_⟩
  · rw [unit] at detached
    exact others q (fun same => attached (same ▸ detached)) (bare q detached)
  · exact apart n sl (by rwa [State.slot, slots] at live)

theorem Bare.routeAdd {s : State} {q : Port} (h : Bare s q) {e : RouteEntry} (foreign : e.owner ≠ q) (n : Nat) :
    Bare { s with routes := s.routes.set n (some e) } q := by
  refine ⟨h.lease, h.rx, h.tx, h.flags, fun x mem => ?_, h.slots⟩
  obtain mem | same := List.mem_or_eq_of_mem_set mem
  · exact h.routes x mem
  · obtain rfl := Option.some.inj same
    exact foreign

theorem Bare.appendTx {s : State} {p q : Port} (h : Bare s q) (other : q ≠ p) (more : List TxEntry) :
    Bare (appendTx p more s) q := by
  have tx : (Machine.appendTx p more s).tx.get q = s.tx.get q := by
    simp only [Machine.appendTx]
    split <;> simp [other]
  refine ⟨by simpa using h.lease, by simpa using h.rx, by rw [tx]; exact h.tx, ?_, by simpa using h.routes,
    fun {n sl} live => h.slots (n := n) ?_⟩
  · simpa [State.unit] using h.flags
  · simpa [State.slot] using live

theorem releaseLease_spares (p : Port) (s : State) : Spares s (releaseLease p s) := by
  refine .of_parts (fun h => ?_) (fun {q} h clear => ?_) (fun {q} holds => ?_) (fun _ h => by simpa using h)
    (fun h => by simpa using h) (fun h => by simpa using h) (narrower_rule.by_of_slots (by simp))
  · rwa [(releaseLease_flagsGained p s).state] at h
  · rw [(releaseLease_flagsGained p s).state] at h
    rw [(releaseLease_flagsGained p s).stirs.detached h]
    exact clear
  · rw [releaseLease_lease] at holds
    split at holds
    · simp at holds
    · exact holds

/-- A DOZE leaves the port DOZING. -/
theorem takeDoze_spares (p : Port) (w : WakeSet) (period : Nat) (s : State) : Spares s (takeDoze p w period s) := by
  have dozes : Spares (releaseLease p s) _ :=
    Spares.modUnit (p := p) (f := fun u => u.doze (s.effectiveSet p w) period) _ nofun id
  refine ((releaseLease_spares p s).trans dozes).trans ((takeDoze_stirs p w period s).spares_plain ?_ ?_ ?_ ?_ ?_)
  · simp
  · rw [takeDoze_line]; rfl
  · simp
  · simp
  · simp

/-- A stop of the line ends an attempt and announces the change. -/
theorem turnLineOff_spares (s : State) : Spares s (turnLineOff s) :=
  (turnLineOff_stirs s).spares_slots (narrower_rule.turnLineOff s) (by simp) (by simp) (by simp) (by simp)

/-- One receive queue replaced by one that is empty when it was. -/
theorem Spares.of_setRx (s : State) {p : Port} {q : RxQueue} (empty : (s.rx.get p).queue = [] → q.queue = []) :
    Spares s (s.setRx p q) := by
  refine .of_parts id (fun _ => id) id (fun {r} _ h => ?_) id id (narrower_rule.by_of_slots rfl)
  rw [State.setRx_rx, Quad.get_set]
  split
  · next same => subst same; exact empty h
  · exact h

theorem Spares.of_setTx (s : State) {p : Port} {q : TxQueue} (empty : (s.tx.get p).entries = [] → q.entries = []) :
    Spares s (s.setTx p q) := by
  refine .of_parts id (fun _ => id) id (fun _ h => h) (fun {r} h => ?_) id (narrower_rule.by_of_slots rfl)
  rw [State.setTx_tx, Quad.get_set]
  split
  · next same => subst same; exact empty h
  · exact h

/-- A slot written back with the claims it had. -/
theorem Spares.of_setSlot {s : State} {n : Nat} {sl x : Slot} (live : s.slot n = some sl) (narrower : sl.Narrower x) :
    Spares s (s.setSlot n (some x)) :=
  Stirs.spares_slots (.of_ports rfl) (narrower_rule.by_setSlot live narrower) rfl rfl rfl rfl

theorem ownershipSafe_block {s t : State} {p : Port} (h : OwnershipSafe s) (done : Block p s t) : OwnershipSafe t := by
  cases done with
  | attach => exact h.spares (.modUnit s nofun fun _ => rfl)
  | resume => exact h.spares (.modUnit s nofun id)
  | setPresence | setEventMask => exact h.spares (.modUnit s id id)
  | takeEvents => exact h.spares (.modUnit s id fun _ => rfl)
  | detach => exact h.teardown p _
  | resetDetached => exact (h.spares (.modUnit s id id)).spares (restoreDefaults_spares p _)
  | resetAttached => exact (h.teardown p _).spares (restoreDefaults_spares p _)
  | doze w period => exact h.spares (takeDoze_spares p w period s)
  | leaseTake active =>
    refine h.give (p := p) (by simp [active]) rfl rfl fun q other bare => ?_
    exact ⟨fun holds => other (Option.some.inj holds).symm, bare.rx, bare.tx, bare.flags, bare.routes, bare.slots⟩
  | leaseRelease => exact h.spares (releaseLease_spares p s)
  | routeAdd n e active own =>
    exact h.give (p := p) (by simp [active]) rfl rfl fun q other bare => bare.routeAdd (own ▸ Ne.symm other) n
  | routeRemove n =>
    refine h.spares (.of_parts id (fun _ => id) id (fun _ => id) id (fun mem => ?_) (narrower_rule.by_of_slots rfl))
    exact (List.mem_or_eq_of_mem_set mem).resolve_right nofun
  | fetch r rest head => exact h.spares (.of_setRx s fun empty => absurd (head.symm.trans empty) nofun)
  | flushRx => exact h.spares (.of_setRx s fun _ => rfl)
  | setReserve => exact h.spares (.of_setRx s id)
  | send e active => exact h.give (p := p) (by simp [active]) (by simp) (by simp) fun q other bare => bare.appendTx other _
  | sendWake active => exact h.give (p := p) (by simp [active]) (by simp) (by simp) fun q other bare => bare.appendTx other _
  | txFlushBehind => exact h.spares (.of_setTx s fun empty => by simp [empty])
  | txFlush => exact h.spares (.of_setTx s fun _ => rfl)
  | slotCreate n line l period offset payload active =>
    refine h.setSlot n nofun fun q claims => .inl ?_
    obtain own | ⟨_, none_, -⟩ := claims
    · obtain rfl : p = q := own
      simp [active]
    · exact absurd none_ nofun
  | standinAttach n sl payload active live foreign =>
    refine h.setSlot n (fun si same => ?_) fun q claims => ?_
    · obtain rfl := Option.some.inj same
      exact Ne.symm foreign
    · obtain own | ⟨si, same, stands⟩ := claims
      · exact .inr ⟨sl, live, .inl own⟩
      · obtain rfl := Option.some.inj same
        obtain rfl : p = q := stands
        exact .inl (by simp [active])
  | slotStop n => exact h.spares ((stopNow_effect n s).spares (narrower_rule.stopNow n s) (by simp) (by simp) (by simp))
  | slotRemove n =>
    exact h.spares ((removeSlot_effect n s).spares (narrower_rule.removeSlot n s) (by simp) (by simp) (by simp))
  | slotConfigure n sl c live => exact h.spares (.of_setSlot live (.of_same rfl rfl))
  | slotStart n sl live =>
    refine h.spares (.of_setSlot live ?_)
    unfold Slot.started
    split <;> exact .of_same rfl rfl
  | slotGoOn n sl live | slotFinish n sl live | slotFinishHeld n sl live =>
    exact h.spares (.of_setSlot live (.of_same rfl rfl))
  | slotRefresh n sl payload live =>
    refine h.spares (.of_setSlot live ?_)
    unfold Slot.refreshed
    split <;> exact .of_same rfl rfl
  | slotSetPeriod n sl period live =>
    refine h.spares (.of_setSlot live ?_)
    unfold Slot.withPeriod
    split <;> exact .of_same rfl rfl
  | standinRefresh n sl si payload live covered =>
    exact h.spares (.of_setSlot live (Slot.narrower_standIn covered rfl))
  | standinDetach n sl live =>
    refine h.spares ((Spares.of_setSlot live (x := { sl with standIn := none }) (.of_uncovered rfl rfl)).trans ?_)
    exact (State.raise_flagsGained _ _ _).stirs.spares_plain rfl rfl rfl rfl rfl
  | lineOn => exact h.spares ((startLine_stirs s).spares_plain (by simp) (by simp) (by simp) (by simp) (by simp))
  | lineOff => exact h.spares (turnLineOff_spares s)
  | lineResync =>
    have ended := (abortAttempt_stirs s).spares_slots (narrower_rule.abortAttempt s) (by simp) (by simp) (by simp) (by simp)
    exact h.spares (ended.trans ((startLine_stirs _).spares_plain (by simp) (by simp) (by simp) (by simp) (by simp)))
  | quietClear =>
    refine h.spares (Stirs.spares_slots (.of_ports rfl) (SlotsBy.of_map (f := Slot.release) rfl fun sl => ?_) rfl rfl rfl rfl)
    unfold Slot.release
    split <;> exact .of_same rfl rfl
  | _ => exact h.spares (.of_same (by simp) (by simp) (by simp) (by simp) (by simp) (by simp))

theorem ownershipSafe_atReset : OwnershipSafe State.reset := by
  refine (ownershipSafe_iff _).2 ⟨rfl, fun p _ => ?_, fun n sl live => ?_⟩
  · refine ⟨nofun, ?_, ?_, ?_, fun e mem => ?_, fun {n sl} live => ?_⟩
    · cases p <;> rfl
    · cases p <;> rfl
    · cases p <;> rfl
    · simp [State.reset] at mem
    · exact absurd (State.slot_mem live) (by simp [State.reset])
  · exact absurd (State.slot_mem live) (by simp [State.reset])

/-- A halt, a trigger edge and a tick of the timebase leave a slot's owner and stand-in. -/
theorem narrower_halt (sl : Slot) : sl.Narrower sl.halt := by
  unfold Slot.halt; split <;> exact .of_same rfl rfl

theorem narrower_takeEdge (pin : TrigPin) (sense : Sense) (sl : Slot) : sl.Narrower (sl.takeEdge pin sense) := by
  unfold Slot.takeEdge; split <;> exact .of_same rfl rfl

theorem setLatch_narrower (s : State) : SlotsBy Slot.Narrower s (setLatch s) := by
  have halted : SlotsBy Slot.Narrower (abortAttempt s) (haltSlots (abortAttempt s)) := SlotsBy.of_map rfl narrower_halt
  exact (narrower_rule.by_trans (narrower_rule.abortAttempt s) halted).before rfl

theorem installBuiltIn_spares (fault : Bool) (s : State) : Spares s (installBuiltIn fault s) := by
  refine .of_parts (fun {q} h => ?_) (fun {q} _ clear => ?_) (fun h => h) (fun {q} _ empty => ?_) (fun h => h) (fun h => h)
    (narrower_rule.by_of_slots rfl)
  · rwa [installBuiltIn_unit] at h
  · rwa [installBuiltIn_unit]
  · rwa [installBuiltIn_rx_get]

theorem installImage_spares (i : Image) (s : State) : Spares s (installImage i s) := by
  refine Spares.trans (t := i.installed s) ?_ ?_
  · refine .of_parts (fun {q} h => ?_) (fun {q} _ clear => ?_) (fun h => h) (fun {q} _ empty => ?_) (fun h => h)
      (fun h => h) (narrower_rule.by_of_slots rfl)
    · rwa [Image.installed_unit] at h
    · rwa [Image.installed_unit]
    · rwa [Image.installed_rx]
  · rw [installImage_eq]
    split
    · exact (startLine_stirs _).spares_plain (by simp) (by simp) (by simp) (by simp) (by simp)
    · exact .of_same rfl rfl rfl rfl rfl rfl

theorem ownershipSafe_event {s t : State} (h : OwnershipSafe s) (done : Event s t) : OwnershipSafe t := by
  cases done with
  | receive r => exact h.spares (receive_spares r s)
  | begin c => exact h.spares (beginAttempt_spares c s)
  | sent r => exact h.spares (endSent_spares r s)
  | lost r => exact h.spares (.of_same rfl rfl (by simp) rfl rfl rfl)
  | failed r => exact h.spares (endError_spares r s)
  | silence => exact h.spares ((silenceExpiry_stirs s).spares_plain rfl rfl rfl rfl rfl)
  | detach p cause => exact h.teardown p cause
  | wakeTimer p =>
    exact (h.spares (.modUnit s id id)).spares ((present_stirs _ _ _ _).spares_plain rfl rfl rfl rfl rfl)
  | slot n => exact h.spares ((expire_effect n s).spares (narrower_rule.expire n s) (by simp) (by simp) (by simp))
  | trigger pin sense =>
    exact h.spares (Stirs.spares_slots (.of_ports rfl) (SlotsBy.of_map rfl (narrower_takeEdge pin sense)) rfl rfl rfl rfl)
  | latch => exact h.spares ((setLatch_stirs s).spares_slots (setLatch_narrower s) (by simp) (by simp) (by simp) (by simp))
  | tick =>
    have state {q : Port} (detached : ((advance s).unit q).state = .detached) : (s.unit q).state = .detached := by
      rwa [advance_unit] at detached
    refine h.spares (.of_parts state (fun {q} _ clear => ?_) id (fun _ => id) id id ?_)
    · rw [advance_unit]; exact clear
    · exact SlotsBy.of_map (f := Slot.tick) rfl fun sl => .of_same rfl rfl
  | load image i => exact h.spares (installImage_spares i s)
  | loadFails => exact h.spares (installBuiltIn_spares true s)
  | resetEnd kind pins =>
    rw [loadDecision_resetValues]
    refine ownershipSafe_atReset.spares (.of_parts (fun {q} _ => ?_) (fun {q} _ _ => ?_) (fun h => h) (fun _ h => h)
      (fun h => h) (fun h => h) (narrower_rule.by_of_slots rfl))
    · cases q <;> rfl
    · exact congrArg PortUnit.flags (resetValues_unit kind pins s q)
  | draw | dwell | window | pin | resetStart => exact h.spares (.of_same rfl rfl rfl rfl rfl rfl)

theorem ownershipSafe_kept : Kept OwnershipSafe where
  exchange := by
    intro s p u h exchanged
    refine h.spares (.of_parts (fun {q} detached => ?_) (fun {q} _ clear => ?_) id (fun _ => id) id id
      (narrower_rule.by_of_slots rfl))
    · by_cases same : q = p
      · subst same; rw [State.setUnit_unit_same, exchanged.unit] at detached; exact detached
      · rwa [State.setUnit_unit_ne _ _ _ same] at detached
    · by_cases same : q = p
      · subst same; rw [State.setUnit_unit_same, exchanged.unit]; exact clear
      · rwa [State.setUnit_unit_ne _ _ _ same]
  block h _ done := ownershipSafe_block h done
  event h done := ownershipSafe_event h done

/-- Settles O58: a teardown leaves its port with nothing, and no operation gives a DETACHED port anything: the commands that
give are taken from ACTIVE ports, and a takeover gives a slot to its stand-in, which is not DETACHED. -/
theorem ownershipStaysSafe : Obligations.OwnershipStaysSafe := ownershipSafe_kept.step

end Sys2Proof.Machine

/-! PROOF. The live slots sound and their line labels distinct, at every step (06, Table 6-1, R91, R94, R107, R115). -/

namespace Sys2Proof.Machine

/-! ## A sound slot, clause by clause -/

/-- The slot states that stand beside a quiet latch `latch` (R115). -/
def SlotState.Allowed (latch : Bool) : SlotState → Prop
  | .stopped => True
  | .armed | .running | .finishing => latch = false
  | .halted _ => latch = true

/-- `Slot.Sound` with its clauses named. -/
structure Slot.Holds (latch : Bool) (sl : Slot) : Prop where
  label : sl.lineLabel ≠ 0
  positive : 1 ≤ sl.period
  bounded : sl.period ≤ Config.maxPeriod
  inside : sl.offset < sl.period
  pending : ∀ q, sl.pendingPeriod = some q → sl.offset < q ∧ q ≤ Config.maxPeriod
  takeoverLow : 1 ≤ sl.takeoverAfter
  takeoverHigh : sl.takeoverAfter ≤ 7
  stale : sl.staleRun ≤ Config.runLimit
  overruns : sl.overruns ≤ Config.runLimit
  timer : sl.nextExpiry.isSome = true ↔ sl.state.runs = true
  attempts : ∀ d, sl.due = some d → d.attempts < Config.attemptLimit
  covered : ∀ si, sl.standIn = some si → si.coveredRun ≤ 7
  edge : sl.source ≠ .command → sl.edge.isSome = true
  state : sl.state.Allowed latch
  quiet : latch = true → sl.due = none

theorem Slot.sound_iff {latch : Bool} {sl : Slot} : sl.Sound latch ↔ sl.Holds latch := by
  constructor
  · rintro ⟨h1, h2, h3, h4, h5, h6, h7, h8, h9, h10, h11, h12, h13, h14, h15⟩
    exact ⟨h1, h2, h3, h4, h5, h6, h7, h8, h9, h10, h11, h12, h13, h14, h15⟩
  · rintro ⟨h1, h2, h3, h4, h5, h6, h7, h8, h9, h10, h11, h12, h13, h14, h15⟩
    exact ⟨h1, h2, h3, h4, h5, h6, h7, h8, h9, h10, h11, h12, h13, h14, h15⟩

/-- A slot that runs stands beside a clear latch. -/
theorem Slot.Holds.clear {latch : Bool} {sl : Slot} (h : sl.Holds latch) (runs : sl.state.runs = true) : latch = false := by
  have state := h.state
  cases at_ : sl.state <;> simp_all [SlotState.runs, SlotState.Allowed]

theorem saturate_le (n : Nat) : saturate n ≤ Config.runLimit := Nat.min_le_left ..

/-- The slot `x` that comes from `y` has its label, and is sound beside the latch `after` when `y` was beside `before`. -/
def Slot.Keeps (before after : Bool) (y x : Slot) : Prop :=
  x.lineLabel = y.lineLabel ∧ (y.Holds before → x.Holds after)

variable {latch : Bool}

theorem Slot.keeps_takenOver {sl : Slot} {si : StandIn} : sl.Keeps latch latch (sl.takenOver si) :=
  ⟨rfl, fun h => { h with stale := Nat.zero_le _, covered := nofun }⟩

theorem keeps_rule (latch : Bool) : SlotRule (Slot.Keeps latch latch) where
  refl _ := ⟨rfl, id⟩
  trans h k := ⟨k.1.trans h.1, fun sound => k.2 (h.2 sound)⟩
  withdraws _ := ⟨rfl, fun h => { h with attempts := nofun, quiet := fun _ => rfl }⟩
  sends _ _ := ⟨rfl, fun h => { h with attempts := nofun, quiet := fun _ => rfl }⟩
  counts sl d few := by
    by_cases free : sl.due = none
    · exact .inr free
    · refine .inl ⟨rfl, fun h => { h with attempts := fun e same => ?_, quiet := fun set => absurd (h.quiet set) free }⟩
      obtain rfl := Option.some.inj same
      exact few
  stops _ := ⟨rfl, fun h => { h with timer := ⟨nofun, nofun⟩, state := trivial }⟩
  uncovers _ := ⟨rfl, fun h => { h with covered := nofun }⟩
  takesOver _ _ _ := Slot.keeps_takenOver

theorem Slot.Holds.finishExpiry {sl : Slot} (h : sl.Holds false) : sl.finishExpiry.Holds false := by
  unfold Slot.finishExpiry
  split
  · next running _ => exact { h with timer := by simp [running, SlotState.runs] }
  · exact { h with timer := ⟨nofun, nofun⟩, state := trivial }
  · exact { h with timer := ⟨nofun, nofun⟩, state := rfl }
  · exact { h with timer := ⟨nofun, nofun⟩, state := trivial }
  · exact h

@[simp] theorem Slot.finishExpiry_lineLabel (sl : Slot) : sl.finishExpiry.lineLabel = sl.lineLabel := by
  unfold Slot.finishExpiry; split <;> rfl

/-- The period a slot takes lies above its offset, as the pending one and the current one do (R97, R107). -/
theorem Slot.Holds.takePeriod {sl : Slot} (h : sl.Holds latch) : sl.takePeriod.Holds latch := by
  have taken : sl.offset < sl.takePeriod.period ∧ sl.takePeriod.period ≤ Config.maxPeriod := by
    cases stands : sl.pendingPeriod with
    | none => simpa [Slot.takePeriod, stands] using ⟨h.inside, h.bounded⟩
    | some q => simpa [Slot.takePeriod, stands] using h.pending q stands
  exact { h with
    positive := Nat.one_le_of_lt taken.1, bounded := taken.2, inside := taken.1, pending := nofun }

theorem Slot.Holds.endRuns {sl : Slot} (h : sl.Holds latch) : sl.endRuns.Holds latch :=
  { h with
    stale := Nat.zero_le _
    covered := fun si same => by
      obtain ⟨_, -, rfl⟩ := Option.map_eq_some_iff.1 same
      exact Nat.zero_le _ }

theorem keeps_expiryRule : ExpiryRule (Slot.Keeps false false) where
  toSlotRule := keeps_rule false
  publishes _ _ _ _ := ⟨rfl, fun h => { h with
    attempts := fun d same => by obtain rfl := Option.some.inj same; exact Nat.zero_lt_succ _
    quiet := nofun }⟩
  overruns _ := ⟨rfl, fun h => { h with overruns := saturate_le _ }⟩
  takesPeriod _ := ⟨rfl, Slot.Holds.takePeriod⟩
  refreshes _ _ := ⟨rfl, fun h => { h with }⟩
  endsRuns _ := ⟨rfl, Slot.Holds.endRuns⟩
  stales _ := ⟨rfl, fun h => { h with stale := saturate_le _ }⟩
  covers sl si _ inside := ⟨rfl, fun h => { h with
    covered := fun sj same => by
      obtain rfl := Option.some.inj same
      exact (Nat.le_of_lt inside).trans h.takeoverHigh }⟩
  finishes sl := ⟨sl.finishExpiry_lineLabel, Slot.Holds.finishExpiry⟩

/-! ## The invariant by slot number -/

theorem slotsSafe_iff (s : State) :
    SlotsSafe s ↔ s.slots.length = Config.slotCount ∧ (∀ n sl, s.slot n = some sl → sl.Holds s.quiet.latch) ∧
      ∀ m n x y, s.slot m = some x → s.slot n = some y → x.lineLabel = y.lineLabel → m = n := by
  simp only [SlotsSafe, Slot.sound_iff]
  refine and_congr_right fun _ => and_congr_left fun _ =>
    ⟨fun h n sl live => h sl (State.slot_mem live), fun h sl mem => ?_⟩
  obtain ⟨n, live⟩ := State.mem_slots.1 mem
  exact h n sl live

theorem SlotsSafe.slot {s : State} (h : SlotsSafe s) {n : Nat} {sl : Slot} (live : s.slot n = some sl) :
    sl.Holds s.quiet.latch := ((slotsSafe_iff s).1 h).2.1 n sl live

/-- Every slot keeps its label and stays sound beside the latch. -/
theorem SlotsSafe.by_slots {s t : State} (h : SlotsSafe s) (slots : SlotsBy (Slot.Keeps s.quiet.latch t.quiet.latch) s t) :
    SlotsSafe t := by
  obtain ⟨full, sound, distinct⟩ := (slotsSafe_iff s).1 h
  refine (slotsSafe_iff t).2 ⟨slots.length.trans full, fun n sl live => ?_, fun m n x y hx hy same => ?_⟩
  · obtain ⟨y, before, -, keeps⟩ := slots.slot live
    exact keeps (sound n y before)
  · obtain ⟨x', before, label, -⟩ := slots.slot hx
    obtain ⟨y', before', label', -⟩ := slots.slot hy
    exact distinct m n x' y' before before' (label.symm.trans (same.trans label'))

/-- What keeps each slot beside a latch that stays. -/
theorem SlotsSafe.keep {s t : State} (h : SlotsSafe s) (slots : SlotsBy (Slot.Keeps s.quiet.latch s.quiet.latch) s t)
    (quiet : t.quiet.latch = s.quiet.latch) : SlotsSafe t := h.by_slots (quiet ▸ slots)

theorem SlotsSafe.congr {s t : State} (h : SlotsSafe s) (slots : t.slots = s.slots)
    (quiet : t.quiet.latch = s.quiet.latch) : SlotsSafe t := h.keep ((keeps_rule _).by_of_slots slots) quiet

/-! ## Offers, outcomes and expiries -/

/-- A publication of a slot that runs, beside a clear latch. -/
theorem SlotsSafe.publish {s t : State} (h : SlotsSafe s) (clear : s.quiet.latch = false) (slots : t.slots = s.slots)
    (quiet : t.quiet.latch = s.quiet.latch) (n : Nat) (payload : List Byte) : SlotsSafe (publish n payload t) := by
  refine (h.congr slots quiet).keep ?_ (by simp)
  rw [quiet, clear]
  exact keeps_expiryRule.publish n payload t

theorem offered_quiet (o : Offer) (s : State) : (offered o s).quiet = s.quiet :=
  (wakePorts_quiet ..).trans (admitGroup_quiet ..)

theorem SlotsSafe.offer {s : State} (h : SlotsSafe s) (o : Offer) (answer : Bool) : SlotsSafe (offer o answer s) := by
  obtain same | ⟨n, sl, live, runs, published⟩ := offer_cases o answer s
  · rw [same]; exact h.congr (offered_slots o s) (by rw [offered_quiet])
  · rw [published]
    exact h.publish ((h.slot live).clear runs) (offered_slots o s) (by rw [offered_quiet]) n _

theorem SlotsSafe.reportSent {s : State} (h : SlotsSafe s) (src : Source) : SlotsSafe (reportSent src s) :=
  h.keep ((keeps_rule _).reportSent src s) (by simp)

theorem SlotsSafe.receive {s : State} (h : SlotsSafe s) (r : Reception) : SlotsSafe (receive r s) := by
  cases r with
  | clean t => exact SlotsSafe.offer (h.congr (cleanReception_slots s) (by simp)) _ _
  | codingError | formatError | checkError => exact h.congr (receptionError_slots s) (by simp [Machine.receive])

theorem SlotsSafe.beginAttempt {s : State} (h : SlotsSafe s) (c : Candidate) : SlotsSafe (beginAttempt c s) := by
  unfold Machine.beginAttempt
  split
  · exact (h.offer _ _).reportSent _
  · exact h.congr rfl rfl

theorem SlotsSafe.endSent {s : State} (h : SlotsSafe s) (r : InFlight) : SlotsSafe (endSent r s) := by
  refine SlotsSafe.reportSent (SlotsSafe.offer (s := s.modLine _) ?_ _ _) _
  exact h.congr (State.modLine_slots ..) (by simp)

theorem SlotsSafe.expire {s : State} (h : SlotsSafe s) {n : Nat} {sl : Slot} (live : s.slot n = some sl)
    (runs : sl.state.runs = true) : SlotsSafe (expire n s) := by
  refine h.keep ?_ (by simp)
  rw [(h.slot live).clear runs]
  exact keeps_expiryRule.expire n s

/-! ## The quiet latch, the trigger pins and the tick -/

/-- A slot at the setting of the latch is halted, unless it is STOPPED (R115). -/
theorem Slot.keeps_halt (sl : Slot) : sl.Keeps false true sl.halt := by
  unfold Slot.halt
  split
  · exact ⟨rfl, fun h => { h with timer := ⟨nofun, nofun⟩, attempts := nofun, state := rfl, quiet := fun _ => rfl }⟩
  · exact ⟨rfl, fun h => { h with timer := ⟨nofun, nofun⟩, attempts := nofun, state := rfl, quiet := fun _ => rfl }⟩
  · exact ⟨rfl, fun h => { h with timer := ⟨nofun, nofun⟩, attempts := nofun, state := rfl, quiet := fun _ => rfl }⟩
  · next stopped =>
    exact ⟨rfl, fun h => { h with attempts := nofun, state := by rw [stopped]; trivial, quiet := fun _ => rfl }⟩
  · next held =>
    refine ⟨rfl, fun h => ?_⟩
    have := h.state
    rw [held] at this
    exact absurd this nofun

/-- A slot at the clearing of the latch returns to its held state (R116). -/
theorem Slot.keeps_release (sl : Slot) : sl.Keeps true false sl.release := by
  unfold Slot.release
  split
  · next held =>
    refine ⟨rfl, fun h => { h with timer := ?_, state := rfl, quiet := nofun }⟩
    simpa [held, SlotState.runs] using h.timer
  · exact ⟨rfl, fun h => { h with timer := by simp [SlotState.runs], state := rfl, quiet := nofun }⟩
  · exact ⟨rfl, fun h => { h with timer := by simp [SlotState.runs], state := rfl, quiet := nofun }⟩
  · next stopped => exact ⟨rfl, fun h => { h with state := by rw [stopped]; trivial, quiet := nofun }⟩
  · next armed => exact ⟨rfl, fun h => { h with state := by rw [armed]; rfl, quiet := nofun }⟩
  · next running => exact ⟨rfl, fun h => { h with state := by rw [running]; rfl, quiet := nofun }⟩
  · next finishing => exact ⟨rfl, fun h => { h with state := by rw [finishing]; rfl, quiet := nofun }⟩

/-- An edge starts or reanchors a slot that is ARMED or RUNNING, which stands beside a clear latch (R112). -/
theorem Slot.keeps_takeEdge (pin : TrigPin) (sense : Sense) (sl : Slot) :
    sl.Keeps latch latch (sl.takeEdge pin sense) := by
  unfold Slot.takeEdge
  split
  · next taken =>
    refine ⟨rfl, fun h => { h with timer := by simp [SlotState.runs], state := ?_ }⟩
    simp only [Bool.and_eq_true, Bool.or_eq_true, beq_iff_eq] at taken
    have state := h.state
    obtain ⟨-, armed | ⟨running, -⟩⟩ := taken
    · rw [armed] at state; exact state
    · rw [running] at state; exact state
  · exact ⟨rfl, id⟩

theorem Slot.keeps_tick (sl : Slot) : sl.Keeps latch latch sl.tick :=
  ⟨rfl, fun h => { h with timer := by simpa [Slot.tick] using h.timer }⟩

theorem SlotsSafe.setLatch {s : State} (h : SlotsSafe s) (clear : s.quiet.latch = false) : SlotsSafe (setLatch s) := by
  have ended : SlotsSafe (abortAttempt s) := h.keep ((keeps_rule _).abortAttempt s) (by simp)
  have quiet : (abortAttempt s).quiet.latch = false := by rw [abortAttempt_quiet, clear]
  refine ended.by_slots ?_
  rw [quiet]
  exact SlotsBy.of_map (f := Slot.halt) rfl Slot.keeps_halt

/-! ## The slot commands -/

/-- A slot written back, its label kept. -/
theorem SlotsSafe.setSlot {s : State} (h : SlotsSafe s) {n : Nat} {sl x : Slot} (live : s.slot n = some sl)
    (keeps : sl.Keeps s.quiet.latch s.quiet.latch x) : SlotsSafe (s.setSlot n (some x)) :=
  h.keep ((keeps_rule _).by_setSlot live keeps) rfl

/-- A slot label that no live slot carries. -/
theorem slotOfLabel_eq_none {s : State} {l : Label} (fresh : s.slotOfLabel l = none) {n : Nat} {sl : Slot}
    (live : s.slot n = some sl) : sl.lineLabel ≠ l := by
  simpa using List.findIdx?_eq_none_iff.1 fresh _ (State.slot_mem live)

theorem Slot.created_holds {p : Port} {line l : Label} {period offset : Nat} {payload : List Byte} (nonzero : line ≠ 0)
    (positive : 1 ≤ period) (bounded : period ≤ Config.maxPeriod) (inside : offset < period) :
    (Slot.created p line l period offset payload).Holds latch :=
  { label := nonzero, positive, bounded, inside, pending := nofun, takeoverLow := by simp [Slot.created]
    takeoverHigh := by simp [Slot.created], stale := Nat.zero_le _, overruns := Nat.zero_le _, timer := ⟨nofun, nofun⟩
    attempts := nofun, covered := nofun, edge := fun other => absurd rfl other, state := trivial, quiet := fun _ => rfl }

/-- A free slot is created with a label that no other carries. -/
theorem SlotsSafe.create {s : State} (h : SlotsSafe s) {n : Nat} {x : Slot} (free : s.slots[n]? = some none)
    (fresh : s.slotOfLabel x.lineLabel = none) (holds : x.Holds s.quiet.latch) : SlotsSafe (s.setSlot n (some x)) := by
  obtain ⟨full, sound, distinct⟩ := (slotsSafe_iff s).1 h
  have inside : n < s.slots.length := (List.getElem?_eq_some_iff.1 free).1
  have slots {m : Nat} {y : Slot} (live : (s.setSlot n (some x)).slot m = some y) :
      m = n ∧ y = x ∨ m ≠ n ∧ s.slot m = some y := by
    by_cases same : m = n
    · subst same
      rw [State.setSlot_slot_same inside] at live
      exact .inl ⟨rfl, (Option.some.inj live).symm⟩
    · exact .inr ⟨same, by rwa [State.setSlot_slot_ne _ _ same] at live⟩
  refine (slotsSafe_iff _).2 ⟨by simpa using full, fun m y live => ?_, fun m k y z hy hz same => ?_⟩
  · obtain ⟨-, rfl⟩ | ⟨-, before⟩ := slots live
    · exact holds
    · exact sound m y before
  · obtain ⟨rfl, rfl⟩ | ⟨hm, before⟩ := slots hy
    · obtain ⟨rfl, -⟩ | ⟨-, before⟩ := slots hz
      · rfl
      · exact absurd same.symm (slotOfLabel_eq_none fresh before)
    · obtain ⟨rfl, rfl⟩ | ⟨-, before'⟩ := slots hz
      · exact absurd same (slotOfLabel_eq_none fresh before)
      · exact distinct m k y z before before' same

theorem Slot.keeps_configured {sl : Slot} {c : SlotSettings} (low : 1 ≤ c.takeoverAfter)
    (high : c.takeoverAfter ≤ 7) (fit : c.fit sl = true) : sl.Keeps latch latch (sl.configured c) := by
  simp only [SlotSettings.fit, Bool.and_eq_true, Bool.or_eq_true, decide_eq_true_eq, beq_iff_eq] at fit
  obtain ⟨⟨inside, below⟩, edge⟩ := fit
  refine ⟨rfl, fun h => { h with
    inside, takeoverLow := low, takeoverHigh := high, pending := fun q stands => ?_
    edge := fun other => edge.resolve_left other }⟩
  have stands : sl.pendingPeriod = some q := stands
  simp only [stands, decide_eq_true_eq] at below
  exact ⟨below, (h.pending q stands).2⟩

theorem Slot.keeps_started {sl : Slot} (stopped : sl.state = .stopped) : sl.Keeps latch latch (sl.started latch) := by
  have idle (h : sl.Holds latch) : sl.nextExpiry.isSome = true ↔ False := by
    rw [h.timer, stopped]; simp [SlotState.runs]
  unfold Slot.started
  split
  · exact ⟨rfl, fun h => { h with stale := Nat.zero_le _, timer := by simp [SlotState.runs], state := rfl }⟩
  · exact ⟨rfl, fun h => { h with stale := Nat.zero_le _, timer := by simp [idle h, SlotState.runs], state := rfl }⟩
  · exact ⟨rfl, fun h => { h with stale := Nat.zero_le _, timer := by simp [idle h, SlotState.runs], state := rfl }⟩
  · exact ⟨rfl, fun h => { h with stale := Nat.zero_le _, timer := by simp [idle h, SlotState.runs], state := rfl }⟩

/-- RUNNING and FINISHING exchanged, the slot halted or not. -/
theorem Slot.Holds.swap {sl : Slot} (h : sl.Holds latch) {st : SlotState} (runs : st.runs = sl.state.runs)
    (state : st.Allowed latch) : { sl with state := st }.Holds latch :=
  { h with timer := by rw [h.timer, ← runs], state := state }

theorem Slot.keeps_refreshed (sl : Slot) (payload : List Byte) : sl.Keeps latch latch (sl.refreshed payload) := by
  unfold Slot.refreshed
  split <;> exact ⟨rfl, fun h => { h with }⟩

theorem Slot.keeps_withPeriod {sl : Slot} {period : Nat} (inside : sl.offset < period)
    (bounded : period ≤ Config.maxPeriod) : sl.Keeps latch latch (sl.withPeriod period) := by
  unfold Slot.withPeriod
  have pending : ∀ q, some period = some q → sl.offset < q ∧ q ≤ Config.maxPeriod := by
    intro q same
    obtain rfl := Option.some.inj same
    exact ⟨inside, bounded⟩
  split
  · exact ⟨rfl, fun h => { h with positive := Nat.one_le_of_lt inside, bounded, inside, pending := nofun }⟩
  · exact ⟨rfl, fun h => { h with positive := Nat.one_le_of_lt inside, bounded, inside, pending := nofun }⟩
  all_goals exact ⟨rfl, fun h => { h with pending := pending }⟩

theorem slotsSafe_block {s t : State} {p : Port} (h : SlotsSafe s) (done : Block p s t) : SlotsSafe t := by
  cases done with
  | detach => exact h.keep ((keeps_rule _).teardown p _ s) (by simp)
  | resetAttached => exact SlotsSafe.congr (h.keep ((keeps_rule _).teardown p .reset s) (by simp)) (by simp) (by simp)
  | resetDetached => exact h.congr rfl rfl
  | slotCreate n line l period offset payload _ nonzero positive bounded inside fresh free =>
    exact h.create free fresh (Slot.created_holds nonzero positive bounded inside)
  | slotConfigure n sl c live _ low high fit => exact h.setSlot live (Slot.keeps_configured low high fit)
  | slotStart n sl live stopped => exact h.setSlot live (Slot.keeps_started stopped)
  | slotGoOn n sl live finishing =>
    refine h.setSlot live ⟨rfl, fun sound => sound.swap (by rw [finishing]; rfl) ?_⟩
    exact sound.clear (by rw [finishing]; rfl)
  | slotFinish n sl live running =>
    refine h.setSlot live ⟨rfl, fun sound => sound.swap (by rw [running]; rfl) ?_⟩
    exact sound.clear (by rw [running]; rfl)
  | slotFinishHeld n sl live held =>
    refine h.setSlot live ⟨rfl, fun sound => sound.swap (by rw [held]; rfl) ?_⟩
    have state := sound.state
    rw [held] at state
    exact state
  | slotStop n => exact h.keep ((keeps_rule _).stopNow n s) (by simp)
  | slotRefresh n sl payload live => exact h.setSlot live (sl.keeps_refreshed payload)
  | slotSetPeriod n sl period live inside bounded => exact h.setSlot live (Slot.keeps_withPeriod inside bounded)
  | slotRemove n => exact h.keep ((keeps_rule _).removeSlot n s) (by simp)
  | standinAttach n sl payload _ live =>
    refine h.setSlot live ⟨rfl, fun sound => { sound with covered := fun si same => ?_ }⟩
    obtain rfl := Option.some.inj same
    exact Nat.zero_le _
  | standinRefresh n sl si payload live covered =>
    refine h.setSlot live ⟨rfl, fun sound => { sound with covered := fun sj same => ?_ }⟩
    obtain rfl := Option.some.inj same
    exact sound.covered si covered
  | standinDetach n sl live =>
    exact SlotsSafe.congr (h.setSlot live ((keeps_rule _).uncovers sl)) rfl rfl
  | lineOff => exact h.keep ((keeps_rule _).turnLineOff s) (by simp)
  | lineResync =>
    have ended : SlotsSafe (abortAttempt s) := h.keep ((keeps_rule _).abortAttempt s) (by simp)
    exact ended.congr (by simp) (by simp)
  | quietClear latched =>
    refine h.by_slots ?_
    rw [latched]
    exact SlotsBy.of_map (f := Slot.release) rfl Slot.keeps_release
  | _ => exact h.congr (by simp) (by simp)

theorem slotsSafe_atReset : SlotsSafe State.reset := by
  refine (slotsSafe_iff _).2 ⟨rfl, fun n sl live => ?_, fun m n x y live => ?_⟩
  · exact absurd (State.slot_mem live) (by simp [State.reset])
  · exact absurd (State.slot_mem live) (by simp [State.reset])

theorem slotsSafe_event {s t : State} (h : SlotsSafe s) (done : Event s t) : SlotsSafe t := by
  cases done with
  | receive r => exact h.receive r
  | begin c => exact h.beginAttempt c
  | sent r => exact h.endSent r
  | failed r => exact h.keep ((keeps_rule _).endError r s) (by simp)
  | detach p cause => exact h.keep ((keeps_rule _).teardown p cause s) (by simp)
  | slot n sl live runs => exact h.expire live runs
  | trigger pin sense => exact h.keep (SlotsBy.of_map rfl (Slot.keeps_takeEdge pin sense)) rfl
  | latch _ clear => exact h.setLatch clear
  | tick => exact h.keep (SlotsBy.of_map rfl Slot.keeps_tick) rfl
  | resetEnd kind pins =>
    rw [loadDecision_resetValues]
    exact slotsSafe_atReset.congr rfl rfl
  | load image i =>
    refine h.congr (by simp) ?_
    rw [installImage_eq]
    split
    · rw [startLine_quiet]; rfl
    · rfl
  | draw | lost | dwell | silence | window | wakeTimer | pin | loadFails | resetStart => exact h.congr rfl rfl

theorem slotsSafe_kept : Kept SlotsSafe where
  exchange h _ := h.congr rfl rfl
  block h _ done := slotsSafe_block h done
  event h done := slotsSafe_event h done

/-- Settles O59: every operation keeps each slot's label and the clauses it touches; expiries and query answers publish for
slots that run, and such a slot stands beside a clear latch; a slot is created under a label no other carries. -/
theorem slotsStaySafe : Obligations.SlotsStaySafe := slotsSafe_kept.step

end Sys2Proof.Machine

/-! PROOF. The invariants in the state after power-on (01, R25; 02, R33; 04, R72; 08, R133; 09, R167; 11, R176, R177). -/

namespace Sys2Proof.Machine

theorem reset_unit (p : Port) : State.reset.unit p = PortUnit.atReset .power := by cases p <;> rfl

theorem reset_rx (p : Port) : State.reset.rx.get p = RxQueue.atReset := by cases p <;> rfl

theorem lineSafe_atReset : LineSafe State.reset :=
  ⟨rfl, Nat.zero_le _, fun _ => rfl, ⟨nofun, nofun⟩, fun _ => ⟨rfl, rfl⟩, nofun⟩

theorem driveSafe_atReset : DriveSafe State.reset := ⟨nofun, nofun, nofun⟩

theorem loaderSafe_atReset : LoaderSafe State.reset := by
  unfold LoaderSafe
  decide

theorem leaseSafe_atReset : LeaseSafe State.reset := nofun

theorem wakeSafe_atReset : WakeSafe State.reset := fun p => by
  rw [reset_unit]
  exact PortUnit.sound_atReset .power false

theorem windowsSafe_atReset : WindowsSafe State.reset := fun p => by
  rw [reset_unit]
  exact ⟨by cases p <;> exact windowsOk_defaultWindows, windowsOk_defaultWindows⟩

theorem poolSafe_atReset : PoolSafe State.reset := by
  refine (poolSafe_iff _).2 ⟨.of_empty (fun p => ?_) (fun p => ?_), fun p => ?_, .of_not_loading nofun⟩
  · rw [reset_rx]; rfl
  · rw [reset_rx]; exact poolSettingsOk_builtIn
  · rw [reset_unit]; exact poolSettingsOk_builtIn

/-- Settles O60: each invariant on the values that device reset gives (R25, R33, R37, R72, R90, R119, R133, R152, R176). -/
theorem invariantsAtReset : Obligations.InvariantsAtReset :=
  ⟨lineSafe_atReset, driveSafe_atReset, loaderSafe_atReset, leaseSafe_atReset, wakeSafe_atReset, windowsSafe_atReset,
    routesSafe_atReset, poolSafe_atReset, txSafe_atReset, ownershipSafe_atReset, slotsSafe_atReset⟩

end Sys2Proof.Machine

/-! PROOF. What holds of every row: an answer, a queue untouched, refusals that change nothing, and the ports kept apart (09,
R150, R151; 12, R182, R183). -/

namespace Sys2Proof.Machine

/-! ## The queue and the outcomes -/

/-- No change touches the queue of commands. -/
theorem Change.pending {s t : State} (h : Change s t) : t.pending = s.pending := by
  cases h with
  | exchange => rfl
  | block _ _ _ done => cases done <;> simp
  | event _ done =>
    cases done with
    | resetEnd kind pins => rw [loadDecision_resetValues]; rfl
    | dwell | silence | wakeTimer => rfl
    | _ => simp

theorem Changes.pending {s t : State} (h : Changes s t) : t.pending = s.pending := by
  induction h with
  | refl => rfl
  | tail _ change ih => exact change.pending.trans ih

/-- Settles O1: by the definition of a step. -/
theorem stepTakesTheFront : Obligations.StepTakesTheFront := fun _ _ _ => rfl

/-- Settles O2: every row is a sequence of changes, and no change touches the queue. -/
theorem everyCommandAnswers : Obligations.EveryCommandAnswers := fun c s => by
  obtain ⟨t, answers, changes⟩ := exec_changes c s
  exact ⟨t, answers, changes.pending⟩

/-! ## Refusals (R151) -/

/-- A reply other than OK leaves the state, and has data for LEASE_HELD alone. -/
def Reply.Honest (s : State) (r : Reply) : Prop := r.2.code ≠ .ok → r.1 = s ∧ (r.2.code ≠ .leaseHeld → r.2.data = [])

@[simp] theorem honest_refuse (s : State) (c : ResultCode) : Reply.Honest s (refuse s c) := fun _ => ⟨rfl, fun _ => rfl⟩

@[simp] theorem honest_accept (s t : State) (data : List Byte) : Reply.Honest s (accept t data) :=
  fun refused => absurd rfl refused

theorem honest_ownedSlot {p : Port} {n : Nat} {s : State} {k : Slot → Reply} (h : ∀ sl, Reply.Honest s (k sl)) :
    Reply.Honest s (ownedSlot p n s k) := by
  unfold ownedSlot
  split
  · exact honest_refuse s _
  · split
    · exact h _
    · exact honest_refuse s _

theorem honest_ownStandIn {p : Port} {n : Nat} {s : State} {k : Slot → StandIn → Reply}
    (h : ∀ sl si, Reply.Honest s (k sl si)) : Reply.Honest s (ownStandIn p n s k) := by
  unfold ownStandIn
  split
  · exact honest_refuse s _
  · split
    · exact honest_refuse s _
    · split
      · exact h _ _
      · exact honest_refuse s _

theorem honest_leaseTake (p : Port) (ps : List Byte) (s : State) : Reply.Honest s (leaseTakeBody p ps s) := by
  unfold leaseTakeBody
  split
  · exact honest_accept s _ _
  · split
    · exact honest_accept s _ _
    · exact fun _ => ⟨rfl, fun other => absurd rfl other⟩

/-- Every block is honest: each of its branches refuses, or answers OK, or refuses LEASE_HELD. -/
theorem Command.body_honest (c : Command) (p : Port) (ps : List Byte) (s : State) :
    Reply.Honest s (c.body p ps s) := by
  cases c with
  | attach | detach | portReset | resume | readStatus | readId | takeEvents | setEventMask | routeList | flushRx | readPool
  | readLine => exact honest_accept s _ _
  | leaseTake => exact honest_leaseTake p ps s
  | slotConfigure | slotStart | slotStop | slotRefresh | slotSetPeriod | slotRemove =>
    simp only [Command.body, slotConfigureBody, slotStartBody, slotStopBody, slotRefreshBody, slotSetPeriodBody,
      slotRemoveBody]
    repeat' split
    all_goals try exact honest_refuse s _
    all_goals
      refine honest_ownedSlot fun sl => ?_
      repeat' split
      all_goals simp
  | standinRefresh | standinDetach =>
    simp only [Command.body, standinRefreshBody, standinDetachBody]
    split
    · exact honest_refuse s _
    · exact honest_ownStandIn fun _ _ => honest_accept s _ _
  | setPresence | doze | leaseRelease | setWindow | readWindow | routeAdd | routeRemove | routeRead | fetch | setReserve
  | send | sendWake | txFlush | txStatus | slotCreate | slotRead | standinAttach | lineSet | lineOn | lineOff | lineResync
  | quietConfig | quietClear =>
    simp only [Command.body, setPresenceBody, dozeBody, leaseReleaseBody, setWindowBody, readWindowBody, routeAddBody,
      routeRemoveBody, routeReadBody, fetchBody, setReserveBody, sendBody, sendWakeBody, txFlushBody, txStatusBody,
      slotCreateBody, slotReadBody, standinAttachBody, lineSetBody, lineOnBody, lineOffBody, lineResyncBody,
      quietConfigBody, quietClearBody]
    repeat' split
    all_goals simp

/-- What a transaction answers that is refused. -/
theorem carried_refused {p : Port} {rest : List Byte} {k : State → Reply} {s : State} (listens : s.Listens p)
    (honest : Reply.Honest (s.found p rest) (k (s.found p rest)))
    (refused : ((carried p (rest.length + 1) k s).unit p).holder.code ≠ .ok) :
    carried p (rest.length + 1) k s = s.answered p rest ((carried p (rest.length + 1) k s).unit p).holder ∧
      (((carried p (rest.length + 1) k s).unit p).holder.code ≠ .leaseHeld →
        ((carried p (rest.length + 1) k s).unit p).holder.data = []) := by
  have selected : carried p (rest.length + 1) k s =
      let r := if (s.found p rest).loader.state = .loading then refuse (s.found p rest) .notReady else k (s.found p rest)
      r.1.setHolder p r.2 := whenSelected_of_listens _ listens
  have answer : Reply.Honest (s.found p rest)
      (if (s.found p rest).loader.state = .loading then refuse (s.found p rest) .notReady else k (s.found p rest)) := by
    split
    · exact honest_refuse _ _
    · exact honest
  rw [selected] at refused ⊢
  simp only [State.setHolder_unit_same] at refused ⊢
  obtain ⟨same, data⟩ := answer refused
  exact ⟨by rw [same]; rfl, data⟩

/-- Settles O8: a refused command has left the state to its block, and the block to the state. -/
theorem refusedChangesNothing : Obligations.RefusedChangesNothing := by
  intro p code rest s listens nonzero
  simp only [transaction, nonzero, if_false]
  cases Command.ofCode code with
  | none => exact carried_refused listens (honest_refuse _ _)
  | some c =>
    refine carried_refused listens ?_
    split
    · exact honest_refuse _ _
    · split
      · exact honest_refuse _ _
      · exact c.body_honest p _ _

/-! ## The checks before the block (R151, R153) -/

theorem unknown_eq {code : Byte} (unknown : isUnknownCode code = true) (p : Port) (rest : List Byte) (s : State) :
    exec (.unknownCommand p code rest) s = .next (carried p (rest.length + 1) (fun t => refuse t .unknown) s) := by
  simp only [isUnknownCode, Bool.and_eq_true, bne_iff_ne, Bool.not_eq_true', ← Command.ofCode_isSome,
    Option.isSome_eq_false_iff, Option.isNone_iff_eq_none] at unknown
  obtain ⟨nonzero, none_⟩ := unknown
  simp only [exec, execUnknownCommand, transaction, nonzero, if_false, none_]

/-- Settles O9: the checks in the order in which a carried command meets them, and Table 9-2 row by row. -/
theorem checksBeforeTheBlock : Obligations.ChecksBeforeTheBlock := by
  refine ⟨fun p rest s listens => ⟨fun loading => ⟨fun code unknown => ?_, fun c => ?_⟩,
    fun ready => ⟨fun code unknown => ?_, fun c malformed => ?_, fun c ps r params refused => ?_⟩⟩,
    fun c => ?_, fun c => ?_, fun c => ?_, fun c => rfl⟩
  · rw [unknown_eq unknown, carried, whenSelected_of_listens _ listens]
    simp [loading, refuse, State.answered, State.found]
  · rw [exec_row, portCommand_notReady listens loading]
  · rw [unknown_eq unknown, carried, whenSelected_of_listens _ listens]
    simp [ready, refuse, State.answered, State.found]
  · rw [exec_row, portCommand_format ⟨listens, ready⟩ malformed]
  · rw [exec_row, portCommand_wrongState ⟨listens, ready⟩ params refused]
  · cases c <;> rfl
  · cases c <;> rfl
  · cases c <;> rfl

/-! ## The octets (R182, R183) -/

theorem toNat_extract_high (w : Word16) : (w.extractLsb' 8 8).toNat = w.toNat / 256 := by
  have := w.isLt
  simp only [BitVec.extractLsb'_toNat, Nat.shiftRight_eq_div_pow]
  omega

theorem toNat_extract_low (w : Word16) : (w.extractLsb' 0 8).toNat = w.toNat % 256 := by
  simp [BitVec.extractLsb'_toNat]

theorem toNat_octets2 (w : Word16) : (octets2 w).map BitVec.toNat = [w.toNat / 256, w.toNat % 256] := by
  simp only [octets2, List.map_cons, List.map_nil, toNat_extract_high, toNat_extract_low]

theorem toNat_count2 (n : Nat) : (count2 n).map BitVec.toNat = [n / 256 % 256, n % 256] := by
  rw [count2, toNat_octets2, BitVec.toNat_ofNat]
  congr 1
  · omega
  · congr 1
    omega

theorem toNat_label2 (l : Label) : (label2 l).map BitVec.toNat = [l.toNat / 256, l.toNat % 256] := by
  have := l.isLt
  rw [label2, toNat_octets2, BitVec.toNat_setWidth, Nat.mod_eq_of_lt (by omega)]

/-- A row is the transaction that clocks in its code. -/
theorem transaction_code (c : Command) (p : Port) (rest : List Byte) (s : State) :
    transaction p (c.code :: rest) s = portCommand c p rest (c.body p) s := by
  simp only [transaction, if_neg c.code_ne_zero, Command.ofCode_code]

/-- Settles O7: the rows by the code table read back, the octets and codes by their definitions. -/
theorem rowsCarryTheirCodes : Obligations.RowsCarryTheirCodes := by
  refine ⟨fun c p rest s => ?_, ⟨fun n => BitVec.toNat_ofNat n 8, toNat_octets2, toNat_count2, toNat_label2, ?set, ?flag⟩,
    ⟨by decide, fun _ => rfl⟩, ?codes, rfl, fun _ _ => ⟨rfl, rfl, rfl, rfl, rfl⟩⟩
  · rw [exec_row, transaction_code]
  case set => decide
  case flag => decide
  case codes =>
    refine ⟨rfl, rfl, fun _ => rfl, rfl, rfl, fun _ => rfl, rfl, rfl, rfl, rfl, rfl, rfl, fun _ => rfl, rfl, fun _ => rfl,
      fun _ _ => rfl, rfl, rfl, fun _ => rfl, rfl, rfl, rfl, rfl, rfl⟩

end Sys2Proof.Machine

/-! PROOF. The exchange of octets, the separation of the ports, the inert hub and the reset values (09, R150, R158; 11, R176;
12, R183). -/

namespace Sys2Proof.Machine

/-! ## The holder shifted out (R150, R158) -/

theorem clockedOut_eq (r : Response) (n : Nat) : r.clockedOut n = (r.octets ++ List.replicate n 0xFF).take n := by
  rw [Response.clockedOut, List.take_append, List.take_replicate, Nat.min_eq_left (Nat.sub_le ..)]

@[simp] theorem State.setUnit_setUnit (s : State) (p : Port) (u v : PortUnit) :
    (s.setUnit p u).setUnit p v = s.setUnit p v := by cases p <;> rfl

theorem found_eq (s : State) (p : Port) (rest : List Byte) :
    s.found p rest = s.setUnit p ({ s.unit p with sdo := (s.unit p).holder.clockedOut (rest.length + 1) }.restartPresence) := by
  rw [State.found, State.heard, State.modUnit, State.shiftOut_unit_same, State.shiftOut, State.modUnit,
    State.setUnit_setUnit]

theorem noCommand_eq {octets : List Byte} (none_ : carriesNoCommand octets = true) (p : Port) (s : State) :
    exec (.transactionWithoutCommand p octets) s = .next (noCommand p octets.length s) := by
  cases octets with
  | nil => rfl
  | cons code rest =>
    have zero : code = 0 := by simpa [carriesNoCommand] using none_
    simp only [exec, execTransactionWithoutCommand, transaction, if_pos zero, List.length_cons]

/-- Whatever row ends a stale chip select, the mark alone goes. -/
theorem transaction_stale {p : Port} {s : State} (live : s.resetting = none) (stale : (s.unit p).staleSelect = true)
    (octets : List Byte) : transaction p octets s = s.setUnit p { s.unit p with staleSelect := false } := by
  unfold transaction noCommand portCommand carried
  repeat' split
  all_goals exact whenSelected_of_stale _ live stale

/-- Settles O10: a transaction without a command shifts out and does no more; the state a command finds, written out; and a
stale chip select in each of the three kinds of row. -/
theorem holderShiftedOut : Obligations.HolderShiftedOut := by
  refine ⟨fun p octets s listens none_ => ?_, fun s p rest => ?_, fun p s live stale =>
    ⟨fun octets => ?_, fun code rest => ?_, fun c rest => ?_⟩⟩
  · rw [noCommand_eq none_, noCommand, whenSelected_of_listens _ listens, State.shiftOut, State.modUnit, clockedOut_eq]
  · rw [found_eq, ← clockedOut_eq]
    unfold PortUnit.restartPresence PortUnit.startPresence
    split <;> rfl
  · exact congrArg Host.Outcome.next (transaction_stale live stale octets)
  · exact congrArg Host.Outcome.next (transaction_stale live stale (code :: rest))
  · rw [exec_row, portCommand_stale live stale]; rfl

/-! ## The ports are separate -/

/-- What a command of another port leaves of port `q` and of the shared parts. -/
structure Separate (q : Port) (s t : State) : Prop where
  unit : Relation.ReflTransGen Stir (s.unit q) (t.unit q)
  windows : t.windows.get q = s.windows.get q
  tx : t.tx.get q = s.tx.get q
  rx : (t.rx.get q).queue = (s.rx.get q).queue
  stamp : t.stamp = s.stamp
  loader : t.loader = s.loader
  resetting : t.resetting = s.resetting
  detector : t.detector = s.detector

theorem Separate.trans {q : Port} {s t u : State} (h : Separate q s t) (k : Separate q t u) : Separate q s u :=
  ⟨h.unit.trans k.unit, k.windows.trans h.windows, k.tx.trans h.tx, k.rx.trans h.rx, k.stamp.trans h.stamp,
    k.loader.trans h.loader, k.resetting.trans h.resetting, k.detector.trans h.detector⟩

theorem Separate.setUnit {p q : Port} (other : q ≠ p) (s : State) (u : PortUnit) : Separate q s (s.setUnit p u) :=
  ⟨by rw [State.setUnit_unit_ne _ _ _ other], rfl, rfl, rfl, rfl, rfl, rfl, rfl⟩

/-- The unit of another port under a block: flags and wake causes alone. -/
theorem Block.stirs {p q : Port} {s t : State} (h : Block p s t) (other : q ≠ p) :
    Relation.ReflTransGen Stir (s.unit q) (t.unit q) := by
  have restored (u : State) : (restoreDefaults p u).unit q = u.unit q := restoreDefaults_unit_ne other u
  have torn (cause : DetachCause) : Relation.ReflTransGen Stir (s.unit q) ((teardown p cause s).unit q) := by
    rw [teardown_unit_ne other]
    exact (released_flagsGained p s).stirs q
  cases h with
  | attach | setPresence | resume | takeEvents | setEventMask => rw [State.modUnit_unit_ne _ _ _ other]
  | detach => exact torn _
  | resetDetached => rw [restored, State.modUnit_unit_ne _ _ _ other]
  | resetAttached => rw [restored]; exact torn _
  | doze w period =>
    refine Relation.ReflTransGen.trans ?_ (takeDoze_stirs p w period s q)
    rw [State.modUnit_unit_ne _ _ _ other]
    exact (releaseLease_flagsGained p s).stirs q
  | leaseRelease => exact (releaseLease_flagsGained p s).stirs q
  | slotStop n => exact (stopNow_effect n s).units.stirs q
  | slotRemove n => exact (removeSlot_effect n s).units.stirs q
  | standinDetach n sl => exact Stirs.after (State.raise_flagsGained _ _ _).stirs rfl q
  | lineOn => exact startLine_stirs s q
  | lineOff => exact turnLineOff_stirs s q
  | lineResync => exact (abortAttempt_stirs s).trans (startLine_stirs _) q
  | send | sendWake => exact Stirs.of_ports (by simp) q
  | _ => exact .refl

theorem appendTx_tx_ne {p q : Port} (other : q ≠ p) (more : List TxEntry) (s : State) :
    (appendTx p more s).tx.get q = s.tx.get q := by
  simp only [appendTx]
  split <;> simp [other]

theorem Block.separate {p q : Port} {s t : State} (h : Block p s t) (other : q ≠ p) : Separate q s t where
  unit := h.stirs other
  windows := by
    cases h with
    | setWindow => simp [other]
    | resetDetached | resetAttached => simp [restoreDefaults, other]
    | _ => simp
  tx := by
    cases h with
    | send | sendWake => exact appendTx_tx_ne other _ s
    | detach => simp [teardown_tx, other]
    | resetAttached => simp [teardown_tx, other]
    | txFlush | txFlushBehind => simp [other]
    | _ => simp
  rx := by
    cases h with
    | fetch | flushRx => simp [other]
    | setReserve r => rw [State.setRx_rx, Quad.get_set]; split <;> simp_all
    | detach => simp [teardown_rx, other]
    | resetDetached => simp [restoreDefaults_rx, other]
    | resetAttached => simp [restoreDefaults_rx, teardown_rx, other]
    | _ => simp
  stamp := by cases h <;> simp
  loader := by cases h <;> simp
  resetting := by cases h <;> simp
  detector := by cases h <;> simp

theorem portCommand_separate {p q : Port} (other : q ≠ p) (c : Command) (rest : List Byte) (s : State) :
    Separate q s (portCommand c p rest (c.body p) s) :=
  portCommand_keeps (I := Separate q s) ⟨.refl, rfl, rfl, rfl, rfl, rfl, rfl, rfl⟩
    (fun _ _ h => (h.trans (.setUnit other _ _)).trans (.setUnit other _ _)) (fun _ _ h => h.trans (.setUnit other _ _))
    (fun _ h => h.trans (.setUnit other _ _)) (fun ps _ h _ taken => h.trans ((c.body_block ps taken).separate other))

/-- What flags and wake causes leave of a unit. -/
theorem stirred_keeps {β : Type} {field : PortUnit → β} (flags : ∀ u fl, field { u with flags := fl } = field u)
    (waking : ∀ u c stamp, field (PortUnit.enterWaking u c stamp) = field u) {u v : PortUnit}
    (h : Relation.ReflTransGen Stir u v) : field v = field u := by
  refine Stir.keeps (P := fun x => field x = field u) (fun x fl _ hx => (flags x fl).trans hx) (fun x c stamp hx => ?_) h rfl
  obtain same | ⟨-, woken⟩ := x.takeCause_cases c stamp
  · rw [same, hx]
  · rw [woken, waking, hx]

/-- Settles O11: another port's unit gains flags and wake causes alone. -/
theorem portsAreSeparate : Obligations.PortsAreSeparate := by
  intro c p q rest s t other next
  obtain ⟨u, answers, changes⟩ := exec_changes (c.row p rest) s
  obtain rfl := Host.Outcome.next.inj (answers.symm.trans next)
  rw [exec_row] at next
  obtain rfl := Host.Outcome.next.inj next
  obtain ⟨unit, windows, tx, rx, stamp, loader, resetting, detector⟩ := portCommand_separate other c rest s
  refine ⟨⟨?_, ?_, ?_, ?_, ?_, ?_, ?_, ?_⟩, windows, tx, rx, stamp, loader, resetting, detector, changes.pending⟩
  all_goals exact stirred_keeps (by intros; rfl) (by intros; rfl) unit

/-! ## During a device reset -/

theorem transaction_inert {s : State} (resets : s.resetting ≠ none) (p : Port) (octets : List Byte) :
    transaction p octets s = s := by
  unfold transaction noCommand portCommand carried
  repeat' split
  all_goals exact whenSelected_of_some _ p resets

/-- Settles O12: every row but the three excepted acts outside a device reset alone. -/
theorem inertDuringReset : Obligations.InertDuringReset := by
  intro c s resets start end_ quiet
  cases c with
  | transactionWithoutCommand p octets => exact congrArg Host.Outcome.next (transaction_inert resets p octets)
  | unknownCommand p code rest => exact congrArg Host.Outcome.next (transaction_inert resets p (code :: rest))
  | deviceResetStart k => exact absurd rfl (start k)
  | deviceResetEnd pins => exact absurd rfl (end_ pins)
  | quietEdge e => exact absurd rfl (quiet e)
  | receptionEnd | generalWakeWindowEnd | dwellExpiry | silenceExpiry | slotExpiry | presenceExpiry | wakeTimerExpiry
  | wakeAcknowledgeExpiry | loadTimeLimit | transmissionStart | contentionLoss | echoError | attemptSent | triggerEdge
  | timebaseTick | imageReadComplete | missingAcknowledge =>
    exact congrArg Host.Outcome.next (whenLive_of_some _ resets)
  | _ p rest => exact congrArg Host.Outcome.next (portCommand_reset resets)

/-! ## The reset values -/

/-- Settles O3: each value by computation. -/
theorem State.resetValues : Obligations.ResetValues := by
  refine ⟨fun p => ?_, fun n => ?_, fun n => ?_, by decide⟩
  · rw [reset_unit, reset_rx]
    cases p <;> exact ⟨rfl, rfl, rfl, rfl, rfl, rfl, rfl, rfl, rfl, rfl, rfl, rfl, rfl, rfl, rfl, rfl⟩
  · simp [State.route, State.reset, List.getD_eq_getElem?_getD, List.getElem?_replicate]
    split <;> rfl
  · simp [State.slot, State.reset, List.getD_eq_getElem?_getD, List.getElem?_replicate]
    split <;> rfl

end Sys2Proof.Machine

/-! PROOF. The telegram on the line and the envelope of a command (01, R1, R2; 12, R182, R183, R185). -/

namespace Sys2Proof.Machine

/-! ## The envelope -/

/-- Settles O6: the length octet against the octets that follow it, and the two kinds of required length. -/
theorem envelopeJudged : Obligations.EnvelopeJudged := by
  refine ⟨fun len ps filler short => ?_, fun _ => rfl, fun len n more few => if_pos few, fun k ps => ?_, fun k ps => ?_⟩
  · cases accepted : len.accepts ps with
    | true => exact parameters_clockedIn filler (Nat.lt_succ_of_le short) accepted
    | false => exact parameters_badLength filler (Nat.lt_succ_of_le short) accepted
  · exact beq_iff_eq
  · simp [FrameLen.accepts]

/-! ## The head of a telegram (Table 12-6) -/

/-- The kind that the two low bits of a telegram's head name. -/
def headKind (head : Word16) : Option Kind := Kind.ofCode ((head.extractLsb' 0 2).setWidth 8)

theorem toNat_head_kind (head : Word16) : ((head.extractLsb' 0 2).setWidth 8).toNat = head.toNat % 4 := by
  rw [BitVec.toNat_setWidth, BitVec.extractLsb'_toNat, Nat.shiftRight_zero]
  omega

theorem toNat_head_label (head : Word16) : (head.extractLsb' 2 14).toNat = head.toNat / 4 := by
  have := head.isLt
  rw [BitVec.extractLsb'_toNat, Nat.shiftRight_eq_div_pow]
  omega

theorem headKind_eq_none {head : Word16} (h : head.toNat % 4 = 3) : headKind head = none :=
  Kind.ofCode_above (by rw [toNat_head_kind, h]; decide)

theorem headKind_of_ne {head : Word16} (h : head.toNat % 4 ≠ 3) :
    ∃ kind, headKind head = some kind ∧ kind.code.toNat = head.toNat % 4 := by
  have code := toNat_head_kind head
  rw [headKind, Kind.ofCode, code]
  have small : head.toNat % 4 < 3 := by omega
  generalize head.toNat % 4 = k at small
  interval_cases k
  · exact ⟨.data, rfl, rfl⟩
  · exact ⟨.query, rfl, rfl⟩
  · exact ⟨.wake, rfl, rfl⟩

theorem Kind.eq_wake_iff (k : Kind) : k = .wake ↔ k.code.toNat = 2 := by cases k <;> decide

theorem label_eq_zero_iff (l : Label) : l = 0 ↔ l.toNat = 0 := by
  rw [← BitVec.toNat_inj]; rfl

/-- The telegram spelled by octets that are long enough, of kind `kind`. -/
def spelled (kind : Kind) (os : List Byte) : Telegram :=
  ⟨kind, (wordAt os 0).extractLsb' 2 14, (os.drop 3).take (octetAt os 2).toNat⟩

/-- A telegram that R1 does not allow. -/
theorem wellFormed_eq_false_iff (t : Telegram) :
    t.wellFormed = false ↔ 16 < t.payload.length ∨ t.kind = .wake ∧ t.label = 0 ∧ t.payload.length ≠ 0 := by
  simp only [Telegram.wellFormed, Bool.and_eq_false_iff, decide_eq_false_iff_not, Nat.not_le, Bool.not_eq_false',
    Bool.and_eq_true, beq_iff_eq, bne_iff_ne, and_assoc]
  rfl

/-! ## The judgement (R2) -/

/-- The line activity is broken, or too short, or not of the length its third octet gives. -/
def Miscoded (act : LineActivity) : Prop :=
  act.broken = true ∨ act.octets.length < 3 ∨ act.octets.length ≠ 5 + (octetAt act.octets 2).toNat

theorem judge_miscoded {act : LineActivity} (h : Miscoded act) : judge act = .codingError := by
  refine if_pos ?_
  simpa [Miscoded, or_assoc] using h

theorem judge_coded {act : LineActivity} (h : ¬Miscoded act) :
    judge act =
      match headKind (wordAt act.octets 0) with
      | none => .formatError
      | some kind =>
        if (spelled kind act.octets).wellFormed = false then .formatError
        else if wordAt act.octets (3 + (octetAt act.octets 2).toNat) ≠
            checkSequence (act.octets.take (3 + (octetAt act.octets 2).toNat)) then .checkError
        else .clean (spelled kind act.octets) := by
  have coded : ¬(act.broken || act.octets.length < 3 || act.octets.length != 5 + (octetAt act.octets 2).toNat) = true := by
    simpa [Miscoded, or_assoc] using h
  simp only [judge, if_neg coded, headKind]
  cases Kind.ofCode ((BitVec.extractLsb' 0 2 (wordAt act.octets 0)).setWidth 8) with
  | none => rfl
  | some kind => simp [spelled]

theorem length_spelled {act : LineActivity} (h : ¬Miscoded act) (kind : Kind) :
    (spelled kind act.octets).payload.length = (octetAt act.octets 2).toNat := by
  simp only [Miscoded, not_or, not_not] at h
  obtain ⟨-, -, length⟩ := h
  simp only [spelled, List.length_take, List.length_drop]
  omega

/-- The telegram spelled is not well-formed exactly by its length octet, its kind and its label. -/
theorem spelled_not_wellFormed {act : LineActivity} (h : ¬Miscoded act) {kind : Kind}
    (code : kind.code.toNat = (wordAt act.octets 0).toNat % 4) :
    (spelled kind act.octets).wellFormed = false ↔
      16 < (octetAt act.octets 2).toNat ∨ (wordAt act.octets 0).toNat % 4 = 2 ∧ (wordAt act.octets 0).toNat / 4 = 0 ∧
        (octetAt act.octets 2).toNat ≠ 0 := by
  rw [wellFormed_eq_false_iff, length_spelled h, Kind.eq_wake_iff, label_eq_zero_iff]
  simp only [spelled, code, toNat_head_label]

/-- Settles O4: the branches of the judgement in their order. -/
theorem receptionJudged : Obligations.ReceptionJudged := by
  intro act
  refine ⟨judge_miscoded, fun coded format => ?_, fun coded plain check => ?_, fun coded plain check => ?_⟩
  · rw [judge_coded coded]
    by_cases three : (wordAt act.octets 0).toNat % 4 = 3
    · rw [headKind_eq_none three]
    · obtain ⟨kind, some_, code⟩ := headKind_of_ne three
      simp only [some_, if_pos ((spelled_not_wellFormed coded code).2 (format.resolve_left three))]
  all_goals
    obtain ⟨three, allowed⟩ := not_or.1 plain
    obtain ⟨kind, some_, code⟩ := headKind_of_ne three
    have wellFormed := (spelled_not_wellFormed coded code).not.2 allowed
    rw [judge_coded coded]
  · simp only [some_, if_neg wellFormed, if_pos check]
  · simp only [some_, if_neg wellFormed, if_neg check]
    exact ⟨_, rfl, code, toNat_head_label _, rfl⟩

/-! ## A telegram sent as its octets (R1, R185) -/

theorem toNat_head (l : Label) (k : BitVec 2) : (l ++ k : BitVec 16).toNat = l.toNat * 4 + k.toNat := by
  rw [BitVec.toNat_append, ← Nat.shiftLeft_add_eq_or_of_lt k.isLt, Nat.shiftLeft_eq]

theorem head_label (l : Label) (k : BitVec 2) : (l ++ k : BitVec 16).extractLsb' 2 14 = l := by
  have := k.isLt
  apply BitVec.eq_of_toNat_eq
  rw [toNat_head_label, toNat_head]
  omega

theorem head_kind (l : Label) (k : Kind) :
    headKind (l ++ (k.code.setWidth 2 : BitVec 2) : BitVec 16) = some k := by
  have octet : ((l ++ (k.code.setWidth 2 : BitVec 2) : BitVec 16).extractLsb' 0 2).setWidth 8 = k.code := by
    apply BitVec.eq_of_toNat_eq
    rw [toNat_head_kind, toNat_head]
    cases k <;> simp [Kind.code]
  rw [headKind, octet, Kind.ofCode_code]

/-- A word behind `xs` is read at `xs`'s length. -/
theorem wordAt_append (xs : List Byte) (w : Word16) : wordAt (xs ++ octets2 w) xs.length = w := by
  simp [wordAt, octetAt, octets2]

/-- The octets of a telegram: two of its head, its length, its payload, two of its check sequence. -/
theorem octets_eq (t : Telegram) :
    t.octets = octets2 (t.label ++ (t.kind.code.setWidth 2 : BitVec 2)) ++
      (oct t.payload.length :: (t.payload ++ octets2 (checkSequence t.body))) := by
  simp [Telegram.octets, Telegram.body]

theorem judge_octets {t : Telegram} (allowed : t.wellFormed = true) (began : Nat) :
    judge ⟨began, false, t.octets⟩ = .clean t := by
  have short : t.payload.length ≤ 16 := by
    simp only [Telegram.wellFormed, Bool.and_eq_true, decide_eq_true_eq] at allowed
    exact allowed.1
  have count : (octetAt t.octets 2).toNat = t.payload.length := by
    rw [octets_eq]
    exact toNat_oct (by omega)
  have bodyLength : t.body.length = 3 + t.payload.length := by simp [Telegram.body]; omega
  have coded : ¬Miscoded ⟨began, false, t.octets⟩ := by
    have length : t.octets.length = 5 + t.payload.length := by
      rw [Telegram.octets, List.length_append, bodyLength, length_octets2]; omega
    rintro (broken | few | other)
    · exact absurd broken nofun
    · have few : t.octets.length < 3 := few
      omega
    · exact other (length.trans (by rw [count]))
  have head : wordAt t.octets 0 = t.label ++ (t.kind.code.setWidth 2 : BitVec 2) := by rw [octets_eq, wordAt_octets2]
  have whole : spelled t.kind t.octets = t := by
    have payload : (t.octets.drop 3).take (octetAt t.octets 2).toNat = t.payload := by
      rw [count, octets_eq, drop_octets2_two]
      simp
    rw [spelled, head, head_label, payload]
  have check : wordAt t.octets (3 + (octetAt t.octets 2).toNat) =
      checkSequence (t.octets.take (3 + (octetAt t.octets 2).toNat)) := by
    rw [count, ← bodyLength, Telegram.octets, wordAt_append, List.take_left]
  rw [judge_coded coded]
  simp only [head, head_kind, whole, allowed, check]
  simp

/-! ## The check sequence (R185) -/

/-- One bit through the register, in the words of R185. -/
theorem crcBit_eq (reg : Word16) (bit : Bool) :
    crcBit reg bit = if reg.getLsbD 15 = bit then reg <<< 1 else (reg <<< 1) ^^^ 0x1021#16 := by
  unfold crcBit
  cases reg.getLsbD 15 <;> cases bit <;> rfl

/-- Settles O5: the octets judged one field after the other, and the check sequence octet by octet. -/
theorem telegramRoundTrip : Obligations.TelegramRoundTrip := by
  refine ⟨fun t began allowed => judge_octets allowed began, rfl, fun message b => ?_⟩
  rw [checkSequence, List.foldl_append]
  simp only [List.foldl_cons, List.foldl_nil, crcOctet, crcBit_eq]
  rfl

end Sys2Proof.Machine

/-! PROOF. The commands and expiries of the port units, and what a teardown releases and spares (09, R155 to R168). -/

namespace Sys2Proof.Machine

/-! ## Expiries one by one (log 5) -/

theorem takeExpiry_of_due {e : Expiry} {s : State} (live : s.resetting = none) (due : s.isDue e = true) :
    whenLive (takeExpiry e) s = expiryEffect e s := by
  rw [whenLive_of_none _ live, takeExpiry, if_pos due]

theorem takeExpiry_of_not_due {e : Expiry} {s : State} (live : s.resetting = none) (early : s.isDue e = false) :
    whenLive (takeExpiry e) s = s := by
  rw [whenLive_of_none _ live, takeExpiry, if_neg (by simp [early])]

theorem ended_iff (t : Option Nat) : ended t = true ↔ t = some 0 := beq_iff_eq

theorem ended_eq_false_iff (t : Option Nat) : ended t = false ↔ t ≠ some 0 := beq_eq_false_iff_ne

/-! ## ATTACH and DETACH (R155, R156, R158) -/

/-- A command that its port's state accepts answers as its block does on the state it finds. -/
theorem exec_taken (c : Command) {p : Port} {ps filler : List Byte} {s t : State} {r : Response} (ready : s.Ready p)
    (short : ps.length < 256) (accepts : c.frame.accepts ps = true) (check : stateCheck c (s.unit p).state = none)
    (reply : c.body p ps (s.found p (clockedIn ps filler)) = (t, r)) :
    exec (c.row p (clockedIn ps filler)) s = .next (t.setHolder p r) := by
  rw [exec_row, portCommand_takenIn ready short accepts check, reply]

theorem exec_active (c : Command) {p : Port} {ps filler : List Byte} {s t : State} {r : Response} (active : s.Active p)
    (short : ps.length < 256) (accepts : c.frame.accepts ps = true) (check : stateCheck c .active = none)
    (reply : c.body p ps (s.found p (clockedIn ps filler)) = (t, r)) :
    exec (c.row p (clockedIn ps filler)) s = .next (t.setHolder p r) :=
  exec_taken c active.1 short accepts (active.2.symm ▸ check) reply

/-- Settles O13: the two commands by their blocks, the two expiries by their condition. -/
theorem attachedAndDetached : Obligations.AttachedAndDetached := by
  refine ⟨fun p filler s ready detached => ?_, fun p filler s active => ?_, fun p s live active zero => ?_,
    fun p s live waking zero => ?_, fun p s live => ⟨fun early => ?_, fun early => ?_⟩⟩
  · refine exec_taken .attach ready (by simp) rfl (by rw [detached]; rfl) ?_
    simp only [Command.body, attachBody, accept, State.found_unit_detachCause]
    rfl
  · exact exec_active .detach active (by simp) rfl rfl rfl
  · exact congrArg Host.Outcome.next (takeExpiry_of_due live (by simp [State.isDue, active, zero, ended]))
  · exact congrArg Host.Outcome.next (takeExpiry_of_due live (by simp [State.isDue, waking, zero, ended]))
  · refine congrArg Host.Outcome.next (takeExpiry_of_not_due live ?_)
    simp only [State.isDue, Bool.and_eq_false_iff, beq_eq_false_iff_ne, ended_eq_false_iff]
    exact early
  · refine congrArg Host.Outcome.next (takeExpiry_of_not_due live ?_)
    simp only [State.isDue, Bool.and_eq_false_iff, beq_eq_false_iff_ne, ended_eq_false_iff]
    exact early

/-! ## Flags raised and kept (R162) -/

theorem EventFlag.getLsbD_mask (f : EventFlag) (i : Nat) : f.mask.getLsbD i = decide (i = f.bit) := by
  have inside : f.bit < 16 := by cases f <;> decide
  rw [EventFlag.mask, ← BitVec.twoPow_eq, BitVec.getLsbD_twoPow]
  by_cases same : f.bit = i
  · simp [← same, inside]
  · simp [same, Ne.symm same]

/-- A flag gained is not lost. -/
theorem FlagsGained.has {s t : State} (h : FlagsGained s t) {q : Port} {f : EventFlag} (set_ : (s.unit q).has f = true) :
    (t.unit q).has f = true := by
  obtain ⟨fl, unit, gained, -⟩ := h q
  rw [unit]
  have bit := congrArg (BitVec.getLsbD · f.bit) gained
  simp only [BitVec.getLsbD_and] at bit
  rw [PortUnit.has] at set_
  simpa [PortUnit.has, set_] using bit

theorem PortUnit.raise_has {u : PortUnit} (attached : u.state ≠ .detached) (f : EventFlag) : (u.raise f).has f = true := by
  simp [PortUnit.raise, attached, PortUnit.has, EventFlag.getLsbD_mask]

theorem PortUnit.raise_has_ne {f g : EventFlag} (other : g ≠ f) (u : PortUnit) : (u.raise f).has g = u.has g := by
  have bit : g.bit ≠ f.bit := by
    cases f <;> cases g <;> simp_all [EventFlag.bit]
  unfold PortUnit.raise
  split
  · rfl
  · simp [PortUnit.has, EventFlag.getLsbD_mask, bit]

theorem State.raise_has {s : State} {p : Port} (attached : (s.unit p).state ≠ .detached) (f : EventFlag) :
    ((s.raise p f).unit p).has f = true := by
  rw [State.raise_unit_same]
  exact PortUnit.raise_has attached f

/-! ## The record in flight under a teardown (R160; 01, R17) -/

/-- The record with its source cut when that is `src` (R17). -/
def InFlight.without (r : InFlight) (src : Source) : InFlight := if r.source = src then { r with source := .none } else r

theorem cut_inFlight (src : Source) {s : State} {r : InFlight} (flies : s.line.inFlight = some r) :
    (cut src s).line.inFlight = some (r.without src) := by
  simp only [cut, flies, InFlight.without]
  split
  · rfl
  · exact flies

theorem removeSlot_inFlight {n : Nat} {s : State} {r : InFlight} (flies : s.line.inFlight = some r) {sl : Slot}
    (live : s.slot n = some sl) : (removeSlot n s).line.inFlight = some (r.without (.dueEntry n)) := by
  have withdrawn : ((withdrawDue n s).setSlot n none).line = (cut (.dueEntry n) s).line := by simp [withdrawDue]
  simp only [removeSlot, live]
  split
  · rw [State.raise_line, withdrawn, cut_inFlight _ flies]
  · rw [withdrawn, cut_inFlight _ flies]

/-- Slot `n` goes in the teardown of `p`: `p` owns it, and nothing stands in. -/
def State.goes (s : State) (p : Port) (n : Nat) : Prop := ∃ sl, s.slot n = some sl ∧ sl.owner = p ∧ sl.standIn = none

theorem disposeSlot_inFlight_of_goes {p : Port} {n : Nat} {s : State} {r : InFlight} (flies : s.line.inFlight = some r)
    (goes : s.goes p n) : (disposeSlot p n s).line.inFlight = some (r.without (.dueEntry n)) := by
  obtain ⟨sl, live, own, bare⟩ := goes
  simp only [disposeSlot, live, own, bare, if_true]
  exact removeSlot_inFlight flies live

theorem disposeSlot_line_of_stays {p : Port} {n : Nat} {s : State} (stays : ¬s.goes p n) :
    (disposeSlot p n s).line = s.line := by
  simp only [disposeSlot]
  split
  · rfl
  · next sl live =>
    split
    · next own =>
      split
      · rfl
      · next bare => exact absurd ⟨sl, live, own, bare⟩ stays
    · rfl

/-- A record whose source is another than the due entry of slot `n` stays at the step of slot `n`. -/
theorem disposeSlot_inFlight_of_ne {p : Port} {n : Nat} {s : State} {r : InFlight} (flies : s.line.inFlight = some r)
    (other : r.source ≠ .dueEntry n) : (disposeSlot p n s).line.inFlight = some r := by
  by_cases goes : s.goes p n
  · rw [disposeSlot_inFlight_of_goes flies goes, InFlight.without, if_neg other]
  · rw [disposeSlot_line_of_stays goes, flies]

/-- Slot `n`, and a record whose source is its due entry or none, stay. -/
structure Untouched (n : Nat) (s t : State) : Prop where
  slot : t.slot n = s.slot n
  flight : ∀ {r : InFlight}, s.line.inFlight = some r → (∀ m, m ≠ n → r.source ≠ .dueEntry m) → t.line.inFlight = some r

theorem disposeSlot_untouched (p : Port) {m n : Nat} (other : m ≠ n) (s : State) : Untouched n s (disposeSlot p m s) :=
  ⟨(disposeSlot_aside other s).slot, fun flies free => disposeSlot_inFlight_of_ne flies (free m other)⟩

theorem Untouched.goes_iff {n : Nat} {s t : State} (h : Untouched n s t) (p : Port) : t.goes p n ↔ s.goes p n := by
  rw [State.goes, State.goes, h.slot]

theorem Untouched.flies {n : Nat} {s t : State} (h : Untouched n s t) {r : InFlight} (flies : s.line.inFlight = some r)
    (source : r.source = .dueEntry n ∨ r.source = .none) : t.line.inFlight = some r := by
  refine h.flight flies fun m other same => ?_
  obtain due | none_ := source
  · exact other (Source.dueEntry.inj (same.symm.trans due))
  · exact absurd (same.symm.trans none_) nofun

/-- The steps around that of slot `n`. -/
theorem disposed_around (p : Port) {n : Nat} (inside : n < Config.slotCount) (s : State) :
    ∃ t, Untouched n s t ∧ Untouched n (disposeSlot p n t) (forSlots (disposeSlot p) s) :=
  forSlots_around inside (fun _ => ⟨rfl, fun flies _ => flies⟩)
    (fun h k => ⟨k.slot.trans h.slot, fun flies free => k.flight (h.flight flies free) free⟩)
    (fun _ t other => disposeSlot_untouched p other t) s

/-- Step 5 cuts a record whose source is the due entry of a slot that goes. -/
theorem disposed_inFlight_of_goes {p : Port} {s : State} (full : s.slots.length = Config.slotCount) {r : InFlight}
    (flies : s.line.inFlight = some r) {n : Nat} (due : r.source = .dueEntry n) (goes : s.goes p n) :
    (forSlots (disposeSlot p) s).line.inFlight = some { r with source := .none } := by
  have inside : n < Config.slotCount := by
    obtain ⟨sl, live, -⟩ := goes
    exact full ▸ State.slot_lt live
  obtain ⟨t, before, behind⟩ := disposed_around p inside s
  have cut_ := disposeSlot_inFlight_of_goes (before.flies flies (.inl due)) ((before.goes_iff p).2 goes)
  rw [InFlight.without, if_pos due] at cut_
  exact behind.flies cut_ (.inr rfl)

/-- Step 5 leaves every other record. -/
theorem disposed_inFlight_of_stays {p : Port} {s : State} (full : s.slots.length = Config.slotCount) {r : InFlight}
    (flies : s.line.inFlight = some r) (stays : ∀ n, r.source = .dueEntry n → ¬s.goes p n) :
    (forSlots (disposeSlot p) s).line.inFlight = some r := by
  by_cases numbered : ∃ n, n < Config.slotCount ∧ r.source = .dueEntry n
  · obtain ⟨n, inside, due⟩ := numbered
    obtain ⟨t, before, behind⟩ := disposed_around p inside s
    refine behind.flies ?_ (.inl due)
    rw [disposeSlot_line_of_stays ((before.goes_iff p).not.2 (stays n due))]
    exact before.flies flies (.inl due)
  · refine (forSlots_keeps (I := fun t => t.slots.length = Config.slotCount ∧ t.line.inFlight = some r) (fun n t ht => ?_)
      ⟨full, flies⟩).2
    obtain ⟨length, flies⟩ := ht
    refine ⟨(disposeSlot_effect p n t).length.trans length, ?_⟩
    by_cases due : r.source = .dueEntry n
    · have outside : t.slot n = none :=
        State.slot_none_of_le (length ▸ Nat.le_of_not_lt fun inside => numbered ⟨n, inside, due⟩)
      rw [disposeSlot_line_of_stays (by rintro ⟨sl, live, -⟩; simp [outside] at live), flies]
    · exact disposeSlot_inFlight_of_ne flies due

/-- The record before step 5: the source is cut when it is the port's queue (R160 step 2). -/
theorem cleared_inFlight (p : Port) {s : State} {r : InFlight} (flies : s.line.inFlight = some r) :
    (freeRoutes p (clearRx p (clearTx p (releaseLease p s)))).line.inFlight = some (r.without (.queueHead p)) := by
  have held : (releaseLease p s).line.inFlight = some r := by
    unfold releaseLease
    split <;> exact flies
  exact cut_inFlight (.queueHead p) held

theorem teardown_inFlight (p : Port) (cause : DetachCause) (s : State) :
    (teardown p cause s).line.inFlight =
      (forSlots (disposeSlot p) (freeRoutes p (clearRx p (clearTx p (releaseLease p s))))).line.inFlight := by
  have line : (released p s).line =
      (forSlots (disposeSlot p) (freeRoutes p (clearRx p (clearTx p (releaseLease p s))))).line :=
    forSlots_keeps (I := fun t => t.line = _) (fun n t ht => (dropStandIn_line p n t).trans ht) rfl
  rw [teardown_eq, State.modUnit_line, line]

theorem cleared_goes_iff (p : Port) (s : State) (n : Nat) :
    (freeRoutes p (clearRx p (clearTx p (releaseLease p s)))).goes p n ↔ s.goes p n := by
  simp only [State.goes, State.slot, cleared_slots]

/-- A teardown of `p` cuts a record from `p`'s queue or from a slot that goes (R160; 01, R17). -/
theorem teardown_cuts {p : Port} {cause : DetachCause} {s : State} (full : s.slots.length = Config.slotCount) {r : InFlight}
    (flies : s.line.inFlight = some r) (source : r.source = .queueHead p ∨ ∃ n, r.source = .dueEntry n ∧ s.goes p n) :
    (teardown p cause s).line.inFlight = some { r with source := .none } := by
  have cleared := cleared_inFlight p flies
  have length := (congrArg List.length (cleared_slots p s)).trans full
  rw [teardown_inFlight]
  obtain head | ⟨n, due, goes⟩ := source
  · rw [InFlight.without, if_pos head] at cleared
    exact disposed_inFlight_of_stays length cleared nofun
  · rw [InFlight.without, if_neg (by simp [due])] at cleared
    exact disposed_inFlight_of_goes length cleared due ((cleared_goes_iff p s n).2 goes)

theorem teardown_leaves {p : Port} {cause : DetachCause} {s : State} (full : s.slots.length = Config.slotCount)
    {r : InFlight} (flies : s.line.inFlight = some r) (head : r.source ≠ .queueHead p)
    (stays : ∀ n, r.source = .dueEntry n → ¬s.goes p n) : (teardown p cause s).line.inFlight = some r := by
  have cleared := cleared_inFlight p flies
  rw [InFlight.without, if_neg head] at cleared
  rw [teardown_inFlight]
  exact disposed_inFlight_of_stays ((congrArg List.length (cleared_slots p s)).trans full) cleared fun n due goes =>
    stays n due ((cleared_goes_iff p s n).1 goes)

/-! ## The flags of a teardown (R128, R129, R168) -/

theorem cleared_flagsGained (p : Port) (s : State) :
    FlagsGained (releaseLease p s) (freeRoutes p (clearRx p (clearTx p (releaseLease p s)))) := .of_ports (by simp)

theorem released_after_lease (p : Port) (s : State) : FlagsGained (releaseLease p s) (released p s) :=
  ((cleared_flagsGained p s).trans (forSlots_effect (disposeSlot_effect p) _).units).trans
    (forSlots_effect (dropStandIn_effect p) _).units

/-- The release of the lease raises LEASE_FREE in every other ACTIVE port. -/
theorem releaseLease_has {p q : Port} {s : State} (holds : s.line.lease = some p) (other : q ≠ p)
    (active : (s.unit q).state = .active) : ((releaseLease p s).unit q).has .leaseFree = true := by
  have unit : (releaseLease p s).unit q = (s.unit q).raise .leaseFree := by
    rw [releaseLease, if_pos (by simp [State.holds, holds]), State.raiseActiveExcept_unit]
    exact if_pos ⟨other, active⟩
  rw [unit]
  exact PortUnit.raise_has (by simp [active]) _

theorem forSlots_aside {f : Nat → State → State} (others : ∀ {m n : Nat}, m ≠ n → ∀ s, Aside n s (f m s)) {n : Nat}
    (inside : n < Config.slotCount) (s : State) : ∃ t, Aside n s t ∧ Aside n (f n t) (forSlots f s) :=
  forSlots_around inside (Aside.refl n) Aside.trans (fun _ t other => others other t) s

/-- Step 5 raises SLOT_GAINED in a stand-in that takes a slot over. -/
theorem disposed_has {p : Port} {s : State} (full : s.slots.length = Config.slotCount) {n : Nat} {sl : Slot} {si : StandIn}
    (live : s.slot n = some sl) (own : sl.owner = p) (covered : sl.standIn = some si)
    (attached : (s.unit si.port).state ≠ .detached) :
    ((forSlots (disposeSlot p) s).unit si.port).has .slotGained = true := by
  obtain ⟨t, before, behind⟩ := forSlots_aside (disposeSlot_aside (p := p)) (full ▸ State.slot_lt live) s
  refine behind.units.has ?_
  have live' : t.slot n = some sl := before.slot.trans live
  simp only [disposeSlot, live', own, covered, if_true]
  exact State.raise_has (by rw [State.setSlot_unit, before.units.state]; exact attached) _

/-- Step 6 raises STANDIN_GONE in the owner of a slot that loses its stand-in. -/
theorem uncovered_has {p : Port} {s : State} (full : s.slots.length = Config.slotCount) {n : Nat} {sl : Slot} {si : StandIn}
    (live : s.slot n = some sl) (covered : sl.standIn = some si) (stands : si.port = p)
    (attached : (s.unit sl.owner).state ≠ .detached) :
    ((forSlots (dropStandIn p) s).unit sl.owner).has .standinGone = true := by
  obtain ⟨t, before, behind⟩ := forSlots_aside (dropStandIn_aside (p := p)) (full ▸ State.slot_lt live) s
  refine behind.units.has ?_
  have live' : t.slot n = some sl := before.slot.trans live
  simp only [dropStandIn, live', covered, stands, if_true]
  exact State.raise_has (by rw [State.setSlot_unit, before.units.state]; exact attached) _

/-- What a teardown leaves of a route entry (R160 step 4). -/
theorem teardown_route (p : Port) (cause : DetachCause) (s : State) (n : Nat) :
    (teardown p cause s).route n = withoutOwner p (s.route n) := by
  simp only [State.route, teardown_routes, freeRoutes_routes, List.getD_eq_getElem?_getD, List.getElem?_map]
  cases s.routes[n]? <;> rfl

theorem Slot.disposed_of_foreign {p : Port} {sl : Slot} (foreign : sl.owner ≠ p) : sl.disposed p = some sl :=
  if_neg foreign

theorem Slot.uncovered_of_free {p : Port} {sl : Slot} (free : ∀ si, sl.standIn = some si → si.port ≠ p) :
    sl.uncovered p = sl := if_neg fun ⟨si, covered, stands⟩ => free si covered stands

theorem Slot.uncovered_of_stands {p : Port} {sl : Slot} {si : StandIn} (covered : sl.standIn = some si)
    (stands : si.port = p) : sl.uncovered p = { sl with standIn := none } := if_pos ⟨si, covered, stands⟩

/-- A port that claims a live slot is not DETACHED (R160, R162; 07, R120). -/
theorem OwnershipSafe.attached {s : State} (h : OwnershipSafe s) {n : Nat} {sl : Slot} (live : s.slot n = some sl) {q : Port}
    (claims : sl.Claims q) : (s.unit q).state ≠ .detached := fun detached =>
  (((ownershipSafe_iff s).1 h).2.1 q detached).slots live claims

theorem teardown_has {p q : Port} (other : q ≠ p) (cause : DetachCause) {s : State} {f : EventFlag}
    (set_ : ((released p s).unit q).has f = true) : ((teardown p cause s).unit q).has f = true := by
  rwa [teardown_unit_ne other]

/-- A stand-in that takes a slot over is told so. -/
theorem teardown_gained {p : Port} {cause : DetachCause} {s : State} (full : s.slots.length = Config.slotCount)
    (safe : OwnershipSafe s) {n : Nat} {sl : Slot} {si : StandIn} (live : s.slot n = some sl) (own : sl.owner = p)
    (covered : sl.standIn = some si) : ((teardown p cause s).unit si.port).has .slotGained = true := by
  have other : si.port ≠ p := own ▸ ((ownershipSafe_iff s).1 safe).2.2 n sl live si covered
  have length := (congrArg List.length (cleared_slots p s)).trans full
  have attached : ((freeRoutes p (clearRx p (clearTx p (releaseLease p s)))).unit si.port).state ≠ .detached := by
    rw [(cleared_flagsGained p s).state, (releaseLease_flagsGained p s).state]
    exact safe.attached live (.inr ⟨si, covered, rfl⟩)
  refine teardown_has other cause ((forSlots_effect (dropStandIn_effect p) _).units.has ?_)
  exact disposed_has length (by rw [State.slot, cleared_slots]; exact live) own covered attached

/-- An owner whose stand-in goes is told so. -/
theorem teardown_gone {p : Port} {cause : DetachCause} {s : State} (full : s.slots.length = Config.slotCount)
    (safe : OwnershipSafe s) {n : Nat} {sl : Slot} {si : StandIn} (live : s.slot n = some sl) (foreign : sl.owner ≠ p)
    (covered : sl.standIn = some si) (stands : si.port = p) :
    ((teardown p cause s).unit sl.owner).has .standinGone = true := by
  have disposed := forSlots_effect (disposeSlot_effect p) (freeRoutes p (clearRx p (clearTx p (releaseLease p s))))
  have length := (congrArg List.length (cleared_slots p s)).trans full
  have attached : ((forSlots (disposeSlot p) (freeRoutes p (clearRx p (clearTx p (releaseLease p s))))).unit
      sl.owner).state ≠ .detached := by
    rw [disposed.units.state, (cleared_flagsGained p s).state, (releaseLease_flagsGained p s).state]
    exact safe.attached live (.inl rfl)
  refine teardown_has foreign cause (uncovered_has (disposed.length.trans length) (n := n) ?_ covered stands attached)
  rw [disposed_slot p length, State.slot, cleared_slots]
  exact (congrArg (Option.bind · (Slot.disposed p)) live).trans (Slot.disposed_of_foreign foreign)

/-- Settles O14: the parts one by one: the unit torn down, the lease, the queues, the entries and slots by number, and the
record in flight. -/
theorem teardownReleases : Obligations.TeardownReleases := by
  intro p cause s slots safe _
  have full := slots.1
  refine ⟨?unit, ?lost, ?kept, ?free, ?rx, ?tx, ?route, ?spared, ?dropped, ?gone, ?passed, ?flight⟩
  case unit =>
    rw [teardown_unit_same_eq]
    exact ⟨rfl, rfl, rfl, rfl, rfl, rfl, rfl, rfl⟩
  case lost => rw [teardown_lease]; split <;> simp_all
  case kept => exact fun other => by rw [teardown_lease, if_neg other]
  case free =>
    refine fun holds => ⟨by rw [teardown_lease, if_pos holds], fun q other active => teardown_has other cause ?_⟩
    exact (released_after_lease p s).has (releaseLease_has holds other active)
  case rx => simp [teardown_rx]
  case tx => simp [teardown_tx]
  case route =>
    intro n e live
    rw [teardown_route, live]
    rfl
  case spared =>
    intro n sl live foreign free
    rw [teardown_slot p cause full, live, Option.bind_some, Slot.disposed_of_foreign foreign, Option.map_some,
      Slot.uncovered_of_free free]
  case dropped =>
    refine fun n sl si live foreign covered stands => ⟨?_, teardown_gone full safe live foreign covered stands⟩
    rw [teardown_slot p cause full, live, Option.bind_some, Slot.disposed_of_foreign foreign, Option.map_some,
      Slot.uncovered_of_stands covered stands]
  case gone =>
    intro n sl live own bare
    rw [teardown_slot p cause full, live, Option.bind_some, Slot.disposed, if_pos own, bare]
    rfl
  case passed =>
    refine fun n sl si live own covered => ⟨?_, teardown_gained full safe live own covered⟩
    rw [teardown_slot p cause full, live, Option.bind_some, Slot.disposed, if_pos own, covered]
    exact congrArg some (Slot.uncovered_of_free nofun)
  case flight =>
    refine fun r flies => ⟨fun source => teardown_cuts full flies ?_, fun head stays => teardown_leaves full flies head ?_⟩
    · exact source.imp_right fun ⟨n, sl, due, live, own, bare⟩ => ⟨n, due, sl, live, own, bare⟩
    · exact fun n due ⟨sl, live, own, bare⟩ => stays n sl due live own bare

/-- Settles O15: other ports gain flags alone, and the line unit keeps all but the lease and the record in flight. -/
theorem teardownSpares : Obligations.TeardownSpares := by
  intro p cause s
  refine ⟨?_, ?_, ?_, ?_, fun q other => ?_, by simp, (teardown_lineCalm p cause s).line, fun other => ?_, by simp, by simp,
    by simp, by simp, by simp, by simp⟩
  · rw [teardown_unit_same_eq]
    exact ⟨rfl, rfl, rfl, rfl, rfl⟩
  · simp [teardown_rx]
  · simp [teardown_rx]
  · simp [teardown_rx]
  · obtain ⟨fl, unit, gained, -⟩ := released_flagsGained p s q
    rw [teardown_unit_ne other, unit]
    exact ⟨rfl, gained, by simp [teardown_rx, other], by simp [teardown_tx, other]⟩
  · rw [teardown_lease, if_neg other]

/-! ## PORT_RESET (R157) -/

/-- The restored reserve, in the words of R71: the default, or the largest figure that leaves no negative headroom. -/
theorem restoredReserve_eq (s : State) (p : Port) :
    s.restoredReserve p =
      let others := sumPorts (fun q => if q = p then 0 else max (s.rx.get q).reserve (s.rx.get q).queue.length)
      if others + (s.unit p).defaults.reserve ≤ 128 then (s.unit p).defaults.reserve else 128 - others := by
  simp only [State.restoredReserve, State.occupancy, Config.poolBuffers]
  split <;> omega

theorem restoreDefaults_eq (p : Port) (s : State) :
    restoreDefaults p s =
      { s with
        windows := s.windows.set p (s.unit p).defaults.windows
        rx := s.rx.set p ⟨(s.rx.get p).queue, s.restoredReserve p, (s.unit p).defaults.limit, (s.unit p).defaults.policy⟩
        }.modUnit p (fun u => { u with
          presenceInterval := (s.unit p).defaults.presenceInterval, mask := (s.unit p).defaults.mask }) := rfl

/-- Settles O16: PORT_RESET is accepted in every state, and what it leaves is the restored defaults. -/
theorem portResetTaken : Obligations.PortResetTaken := by
  intro p filler s ready
  refine exec_taken .portReset ready (by simp) rfl (by cases (s.unit p).state <;> rfl) ?_
  have defaults : ((if (s.unit p).state = .detached then
      (s.found p (clockedIn [] filler)).modUnit p (fun u => { u with detachCause := .reset })
      else teardown p .reset (s.found p (clockedIn [] filler))).unit p).defaults = (s.unit p).defaults := by
    split
    · rw [State.modUnit_unit_same, State.found_unit_defaults]
    · rw [teardown_unit_defaults, State.found_unit_defaults]
  simp only [Command.body, portResetBody, accept, State.found_unit_state, restoreDefaults_eq, restoredReserve_eq, defaults]

/-! ## Presence, events and the lease (R159, R164, R165, R167, R168) -/

theorem presenceIntervalOk_iff (n : Nat) :
    presenceIntervalOk n = true ↔ n = 0 ∨ (10 ≤ n ∧ n ≤ 2550 ∧ n % 10 = 0) := by
  simp only [presenceIntervalOk, Bool.and_eq_true, beq_iff_eq, decide_eq_true_eq]
  omega

/-- Settles O17: the four presence and event rules by their blocks. -/
theorem presenceAndEvents : Obligations.PresenceAndEvents := by
  refine ⟨fun p n filler s active => ⟨fun inRange => ?_, fun outside => ?_⟩,
    fun p filler s active => ⟨?_, fun m => ?_⟩⟩
  · refine exec_active .setPresence active (by simp) rfl rfl ?_
    simp only [Command.body, setPresenceBody, wordAt_octets2_nil, if_pos ((presenceIntervalOk_iff _).2 inRange), accept]
    rfl
  · refine exec_active .setPresence active (by simp) rfl rfl ?_
    simp only [Command.body, setPresenceBody, wordAt_octets2_nil, if_neg ((presenceIntervalOk_iff _).not.2 outside), refuse]
  · refine exec_active .takeEvents active (by simp) rfl rfl ?_
    simp only [Command.body, takeEventsBody, accept, State.found_unit_flags, octets2]
  · refine exec_active .setEventMask active (by simp) rfl rfl ?_
    simp only [Command.body, setEventMaskBody, accept, wordAt_octets2_nil]

/-- Settles O20: the two lease commands by who holds the lease. -/
theorem leaseTakenAndReleased : Obligations.LeaseTakenAndReleased := by
  intro p filler s active
  refine ⟨fun free => ?_, fun holds => ?_, fun q other holds => ?_, fun holds => ?_, fun foreign => ?_⟩
  · refine exec_active .leaseTake active (by simp) rfl rfl ?_
    simp only [Command.body, leaseTakeBody, State.found_line, free, accept]
    rfl
  · refine exec_active .leaseTake active (by simp) rfl rfl ?_
    simp only [Command.body, leaseTakeBody, State.found_line, holds, accept, if_true]
  · refine exec_active .leaseTake active (by simp) rfl rfl ?_
    simp only [Command.body, leaseTakeBody, State.found_line, holds, if_neg other]
  · refine exec_active .leaseRelease active (by simp) rfl rfl ?_
    simp only [Command.body, leaseReleaseBody, releaseLease, State.holds, State.found_line, holds, BEq.rfl, if_true, accept]
  · refine exec_active .leaseRelease active (by simp) rfl rfl ?_
    have none_ : (s.found p (clockedIn [] filler)).holds p = false := by simpa [State.holds] using foreign
    simp only [Command.body, leaseReleaseBody, none_, refuse]
    rfl

/-! ## The outputs (R145, R163; 01, R4; 11, R176) -/

theorem EventFlag.exists_bit {i : Nat} (h : i < 16) : ∃ f : EventFlag, f.bit = i := by
  interval_cases i
  exacts [⟨.rxReady, rfl⟩, ⟨.rxDrop, rfl⟩, ⟨.txDone, rfl⟩, ⟨.txFail, rfl⟩, ⟨.slotStale, rfl⟩, ⟨.slotOverrun, rfl⟩,
    ⟨.slotLost, rfl⟩, ⟨.slotGained, rfl⟩, ⟨.standinUsed, rfl⟩, ⟨.standinGone, rfl⟩, ⟨.coverEnded, rfl⟩, ⟨.lineChange, rfl⟩,
    ⟨.lineSilent, rfl⟩, ⟨.quiet, rfl⟩, ⟨.wakeCfgFault, rfl⟩, ⟨.leaseFree, rfl⟩]

/-- Two words share a bit exactly when some flag stands in both. -/
theorem and_ne_zero_iff (x y : BitVec 16) :
    x &&& y ≠ 0 ↔ ∃ f : EventFlag, x.getLsbD f.bit = true ∧ y.getLsbD f.bit = true := by
  constructor
  · intro some_
    by_contra none_
    refine some_ (BitVec.eq_of_getLsbD_eq fun i inside => ?_)
    obtain ⟨f, rfl⟩ := EventFlag.exists_bit inside
    simp only [not_exists, not_and, Bool.not_eq_true] at none_
    refine Eq.trans ?_ BitVec.getLsbD_zero.symm
    rw [BitVec.getLsbD_and]
    cases hx : x.getLsbD f.bit with
    | false => rfl
    | true => rw [none_ f hx, Bool.and_false]
  · rintro ⟨f, hx, hy⟩ zero
    have bit := congrArg (BitVec.getLsbD · f.bit) zero
    simp [hx, hy] at bit

theorem State.attn_iff (s : State) (p : Port) :
    s.attn p = true ↔ s.resetting = none ∧ (s.unit p).state = .active ∧
      ∃ f : EventFlag, (s.unit p).has f = true ∧ (s.unit p).mask.getLsbD f.bit = true := by
  have both := and_ne_zero_iff (s.unit p).flags (s.unit p).mask
  simp only [State.attn, Bool.and_eq_true, Option.isNone_iff_eq_none, beq_iff_eq, bne_iff_ne, and_assoc]
  exact and_congr_right fun _ => and_congr_right fun _ => both

/-- Settles O18: a raised flag bit by bit, the raising operations port by port, and the outputs by their definitions. -/
theorem flagsAndOutputs : Obligations.FlagsAndOutputs := by
  refine ⟨fun u f g => ⟨fun attached => PortUnit.raise_has attached f, fun other => PortUnit.raise_has_ne other u,
    fun detached => if_pos detached, ?_⟩, fun s p q f => ⟨?_, State.raiseAll_unit .., State.raiseActive_unit ..,
    State.raiseActiveExcept_unit .., rfl, rfl, rfl, rfl⟩, State.attn_iff, fun s p => ?_,
    fun s => ⟨?_, fun r live flies => ?_, fun quiet => ?_⟩, fun s => ⟨fun live => ?_, fun resets => ?_⟩⟩
  · unfold PortUnit.raise
    split <;> rfl
  · split
    · next same => subst same; exact State.raise_unit_same ..
    · next other => exact State.raise_unit_ne s p f other
  · simp only [State.waken, Bool.and_eq_true, Option.isNone_iff_eq_none, beq_iff_eq]
    rfl
  · simp [State.len, Option.isSome_iff_ne_none]
  · simp only [State.ltxOctets, live, flies]
  · unfold State.ltxOctets
    split
    · next live flies => simp_all
    · rfl
  · simp [State.imageBus, live]
  · simp [State.imageBus, resets]

end Sys2Proof.Machine

/-! PROOF. The commands of the windows, the route table and the pool settings, and the deliveries (02, R30, R31; 03, R42 to
R50; 04, R68 to R70). -/

namespace Sys2Proof.Machine

/-! ## SET_WINDOW and READ_WINDOW (02, R30, R31) -/

theorem stateCheck_window {st : PortState} (h : st = .active ∨ st = .detached) :
    stateCheck .setWindow st = none ∧ stateCheck .readWindow st = none := by
  rcases h with rfl | rfl <;> exact ⟨rfl, rfl⟩

/-- Seven octets that give no window (R30, R184). -/
theorem windowAt_outOfRange {n attributes : Byte} {base mask map : Word16}
    (out : 16383 < base.toNat ∨ 16383 < mask.toNat ∨ 16383 < map.toNat ∨ 15 < attributes.toNat) :
    windowAt (n :: (octets2 base ++ octets2 mask ++ octets2 map ++ [attributes])) 1 = none := by
  have read (w : Word16) : labelOf (w.extractLsb' 8 8 ++ w.extractLsb' 0 8) = labelOf w := by rw [high_append_low]
  simp only [windowAt, octets2, List.cons_append, List.nil_append, wordAt_cons_succ, wordAt_cons_cons_zero,
    octetAt_cons_succ, octetAt_cons_zero, read]
  split
  · next hb hm hp =>
    refine if_neg fun small => ?_
    rcases out with h | h | h | h
    · simp [labelOf_above h] at hb
    · simp [labelOf_above h] at hm
    · simp [labelOf_above h] at hp
    · omega
  · rfl

theorem setWindowBody_outOfRange {n attributes : Byte} {base mask map : Word16}
    (out : 7 < n.toNat ∨ 16383 < base.toNat ∨ 16383 < mask.toNat ∨ 16383 < map.toNat ∨ 15 < attributes.toNat) (p : Port)
    (s : State) :
    setWindowBody p (n :: (octets2 base ++ octets2 mask ++ octets2 map ++ [attributes])) s = refuse s .outOfRange := by
  simp only [setWindowBody, octetAt_cons_zero]
  split
  · rfl
  · next w found =>
    refine if_pos ?_
    rcases out with above | out
    · exact above
    · exact absurd (found.symm.trans (windowAt_outOfRange out)) nofun

/-- Settles O21: the window read back from its octets, then the checks of the two blocks. -/
theorem windowCommands : Obligations.WindowCommands := by
  intro p n w filler s ready state
  obtain ⟨write, read⟩ := stateCheck_window state
  have given := windowAt_octets n w
  refine ⟨fun inside inMask => ?_, fun inside outside => ?_, fun base mask map attributes out => ?_, fun above => ?_,
    fun inside found => ?_⟩
  · have below : ¬Config.windowCount ≤ n.toNat := Nat.not_le.2 (Nat.lt_succ_of_le inside)
    refine exec_taken .setWindow (ps := n :: w.octets) ready (by simp [Window.octets]) rfl write ?_
    simp only [Command.body, setWindowBody, octetAt_cons_zero, given, if_neg below, inMask, Bool.not_true, Bool.false_eq_true,
      if_false, accept]
    rfl
  · have below : ¬Config.windowCount ≤ n.toNat := Nat.not_le.2 (Nat.lt_succ_of_le inside)
    refine exec_taken .setWindow (ps := n :: w.octets) ready (by simp [Window.octets]) rfl write ?_
    simp only [Command.body, setWindowBody, octetAt_cons_zero, given, if_neg below, outside, Bool.not_false, if_true, refuse]
    rfl
  · exact exec_taken .setWindow ready (by simp) rfl write (setWindowBody_outOfRange out p _)
  · exact exec_taken .readWindow ready (by simp) rfl read (if_pos above)
  · have below : ¬Config.windowCount ≤ n.toNat := Nat.not_le.2 (Nat.lt_succ_of_le inside)
    refine exec_taken .readWindow ready (by simp) rfl read ?_
    simp [Command.body, readWindowBody, below, found, accept, Window.octets, Window.attributes]

/-! ## ROUTE_ADD (03, R49, R50) -/

theorem routeEntryOf_outOfRange {p : Port} {ps : List Byte}
    (out : 15 < (octetAt ps 0).toNat ∨ 16383 < (wordAt ps 1).toNat ∨ 16383 < (wordAt ps 3).toNat ∨
      7 < (octetAt ps 5).toNat ∨ (16 < (octetAt ps 6).toNat ∧ (octetAt ps 6).toNat ≠ 255) ∨ 2 < (octetAt ps 7).toNat ∨
      1 < (octetAt ps 8).toNat ∨ 7 < (octetAt ps 9).toNat ∨
      ((octetAt ps 9).getLsbD 2 = true ∧ 16383 < (wordAt ps 10).toNat)) : routeEntryOf p ps = none := by
  simp only [routeEntryOf]
  split
  · next hbase hmask hkinds hlen htest haction hlocal =>
    refine if_neg fun ⟨rank, attributes⟩ => ?_
    rcases out with h | h | h | h | ⟨h, other⟩ | h | h | h | ⟨present, h⟩
    · omega
    · simp [labelOf_above h] at hbase
    · simp [labelOf_above h] at hmask
    · simp [KindSet.ofOctet_above h] at hkinds
    · simp [LengthTest.ofCode_above h other] at hlen
    · simp [dataTestOf_above _ _ h] at htest
    · simp [Action.ofCode_above h] at haction
    · omega
    · simp [localBaseOf, present, labelOf_above h, -BitVec.getLsbD_eq_getElem] at hlocal
  · rfl

/-- The 28 parameter octets of ROUTE_ADD. -/
def routeParameters (rank : Nat) (base mask : Label) (kinds : KindSet) (lengths : LengthTest) (code : Byte)
    (action : Action) (hold wake present : Bool) (lb : Word16) (dataMask dataValue : List Byte) : List Byte :=
  oct rank :: (label2 base ++ label2 mask ++
    [kinds.octet, lengths.code, code, action.code, setOctet hold wake present false] ++ octets2 lb ++ dataMask ++ dataValue)

/-- The values of ROUTE_ADD's fields that are inside their ranges. -/
structure RouteFields (p : Port) (rank : Nat) (lengths : LengthTest) (code : Byte) (test : DataTest)
    (localBase : Option Label) (lb : Word16) (dataMask dataValue : List Byte) : Prop where
  rank : rank ≤ 15
  lengths : lengths = .any ∨ ∃ k, k ≤ 16 ∧ lengths = .exact k
  mask : dataMask.length = 8
  value : dataValue.length = 8
  test : (code = 0 ∧ test = .none) ∨ (code = 1 ∧ test = .anySet dataMask) ∨
    (code = 2 ∧ test = .equal dataMask (List.zipWith (· &&& ·) dataValue dataMask))
  localBase : localBase = none ∨ ∃ b : Label, localBase = some b ∧ lb = b.setWidth 16

theorem routeEntryOf_parameters {p : Port} {rank : Nat} {base mask : Label} {kinds : KindSet} {lengths : LengthTest}
    {code : Byte} {test : DataTest} {action : Action} {hold wake : Bool} {localBase : Option Label} {lb : Word16}
    {dataMask dataValue : List Byte} (h : RouteFields p rank lengths code test localBase lb dataMask dataValue) :
    routeEntryOf p (routeParameters rank base mask kinds lengths code action hold wake localBase.isSome lb dataMask
      dataValue) =
      some ⟨p, rank, base, mask, kinds, lengths, test, action, hold || wake, wake, localBase⟩ := by
  generalize hps : routeParameters rank base mask kinds lengths code action hold wake localBase.isSome lb dataMask
    dataValue = ps
  have o0 : octetAt ps 0 = oct rank := by subst hps; rfl
  have w1 : labelOf (wordAt ps 1) = some base := by subst hps; exact (congrArg labelOf (high_append_low _)).trans (labelOf_label base)
  have w3 : labelOf (wordAt ps 3) = some mask := by subst hps; exact (congrArg labelOf (high_append_low _)).trans (labelOf_label mask)
  have o5 : octetAt ps 5 = kinds.octet := by subst hps; rfl
  have o6 : octetAt ps 6 = lengths.code := by subst hps; rfl
  have o7 : octetAt ps 7 = code := by subst hps; rfl
  have o8 : octetAt ps 8 = action.code := by subst hps; rfl
  have o9 : octetAt ps 9 = setOctet hold wake localBase.isSome false := by subst hps; rfl
  have w10 : wordAt ps 10 = lb := by subst hps; exact high_append_low lb
  have tail : ps.drop 12 = dataMask ++ dataValue := by subst hps; rfl
  have dm : (ps.drop 12).take 8 = dataMask := by rw [tail, List.take_left' h.mask]
  have dv : (ps.drop 20).take 8 = dataValue := by
    rw [show ps.drop 20 = (ps.drop 12).drop 8 by rw [List.drop_drop], tail, List.drop_left' h.mask, ← h.value,
      List.take_length]
  have len : LengthTest.ofCode lengths.code = some lengths := by
    obtain rfl | ⟨k, short, rfl⟩ := h.lengths
    · exact LengthTest.ofCode_any
    · exact LengthTest.ofCode_exact short
  have dt : dataTestOf code dataMask dataValue = some test := by
    obtain ⟨rfl, rfl⟩ | ⟨rfl, rfl⟩ | ⟨rfl, rfl⟩ := h.test <;> rfl
  have own : localBaseOf localBase.isSome lb = some localBase := by
    obtain rfl | ⟨b, rfl, rfl⟩ := h.localBase
    · rfl
    · simp [localBaseOf]
  have rank_ : (oct rank).toNat = rank := toNat_oct (by have := h.rank; omega)
  have attributes : rank ≤ 15 ∧ (setOctet hold wake localBase.isSome false).toNat < 8 := ⟨h.rank, setOctet_lt_eight ..⟩
  simp only [routeEntryOf, o0, w1, w3, o5, o6, o7, o8, o9, w10, dm, dv, len, dt, KindSet.ofOctet_octet, Action.ofCode_code,
    getLsbD_setOctet_zero, getLsbD_setOctet_one, getLsbD_setOctet_two, own, rank_, if_pos attributes]

theorem RouteEntry.patternOk_iff (e : RouteEntry) :
    e.patternOk = true ↔ e.labelBase &&& ~~~e.labelMask = 0 ∧ (∀ b, e.localBase = some b → b &&& ~~~e.labelMask = 0) ∧
      (e.kinds.data = true ∨ e.kinds.query = true ∨ e.kinds.wake = true) := by
  simp only [RouteEntry.patternOk, within, Bool.and_eq_true, Bool.or_eq_true, beq_iff_eq, and_assoc, or_assoc]
  refine and_congr_right fun _ => and_congr_left fun _ => ?_
  cases e.localBase <;> simp

section
variable {p : Port} {ps : List Byte} {s : State} {e : RouteEntry} (read : routeEntryOf p ps = some e)
include read

theorem routeAddBody_badPattern (bad : e.patternOk = false) : routeAddBody p ps s = refuse s .badPattern := by
  simp [routeAddBody, read, bad]

theorem routeAddBody_portLimit (good : e.patternOk = true) (full : 32 ≤ s.routeCount p) :
    routeAddBody p ps s = refuse s .portLimit := by
  simp [routeAddBody, read, good, Config.routesPerPort, full]

theorem routeAddBody_tableFull (good : e.patternOk = true) (few : s.routeCount p < 32) (full : ∀ x ∈ s.routes, x ≠ none) :
    routeAddBody p ps s = refuse s .tableFull := by
  simp [routeAddBody, read, good, Config.routesPerPort, Nat.not_le.2 few, findIdx?_isNone_of_full full]

theorem routeAddBody_taken (good : e.patternOk = true) (few : s.routeCount p < 32) {n : Nat}
    (free : s.routes[n]? = some none) (lowest : ∀ m, m < n → (s.route m).isSome = true) :
    routeAddBody p ps s = accept { s with routes := s.routes.set n (some e) } [oct n] := by
  simp [routeAddBody, read, good, Config.routesPerPort, Nat.not_le.2 few, findIdx?_isNone_of_lowest free lowest]

end

/-- Settles O23: the entry read back from its octets, then the four checks in their order. -/
theorem routeAdded : Obligations.RouteAdded := by
  refine ⟨fun p ps filler s active length => ?_, fun p rank base mask kinds lengths code test action hold wake localBase lb
    dataMask dataValue filler s active rank_ lengths_ maskLength valueLength test_ localBase_ => ?_⟩
  · intro at' rest out
    refine exec_active .routeAdd active (by omega) (beq_iff_eq.2 length) rfl ?_
    simp only [Command.body, routeAddBody, routeEntryOf_outOfRange out, refuse]
    rfl
  · have read := routeEntryOf_parameters (p := p) (base := base) (mask := mask) (kinds := kinds) (action := action)
      (hold := hold) (wake := wake)
      ⟨rank_, lengths_, maskLength, valueLength, test_, localBase_⟩
    have length : (routeParameters rank base mask kinds lengths code action hold wake localBase.isSome lb dataMask
        dataValue).length = 28 := by
      simp [routeParameters, maskLength, valueLength]
    have answers {t : State} {r : Response} := exec_active (filler := filler) (t := t) (r := r) .routeAdd active
      (length.trans_lt (by decide)) (beq_iff_eq.2 length) rfl
    have pattern := RouteEntry.patternOk_iff
      ⟨p, rank, base, mask, kinds, lengths, test, action, hold || wake, wake, localBase⟩
    refine ⟨fun bad => answers ?_, fun good full => answers ?_, fun good few full => answers ?_,
      fun n good few free lowest => answers ?_⟩
    · exact routeAddBody_badPattern read (Bool.eq_false_iff.2 (pattern.not.2 bad))
    · exact routeAddBody_portLimit read (pattern.2 good) full
    · exact routeAddBody_tableFull read (pattern.2 good) few full
    · exact routeAddBody_taken (s := s.found p _) read (pattern.2 good) few free lowest

/-! ## Deliveries (03, R42 to R47) -/

/-- What a port that sleeps is delivered (Table 3-2). -/
theorem outcome_of_asleep {o : Offer} {st : PortState} {n : Nat} {e : RouteEntry} (asleep : st = .dozing ∨ st = .waking)
    (deliver : e.action = .deliver) :
    o.outcome st n e =
      if e.hold || e.wake then ⟨some (o.copy n e true), if e.wake then some n else none⟩ else Delivery.nothing := by
  rcases asleep with rfl | rfl <;> simp only [Offer.outcome, deliver]

/-- Settles O26: the decision by the excluded port, the deciding entry and the port's state. -/
theorem deliveryTable : Obligations.DeliveryTable := by
  intro o s p
  refine ⟨fun excluded => if_pos excluded, fun none_ => ?_, fun n e other decided => ?_⟩
  · unfold Offer.decide
    split
    · rfl
    · rw [none_]; rfl
  · have decide_ : o.decide s p = o.outcome (s.unit p).state n e := by
      rw [Offer.decide, if_neg other, decided]
    rw [decide_]
    refine ⟨fun discard => ?_, fun detached => ?_, fun deliver active => ?_, fun deliver asleep noHold noWake => ?_,
      fun deliver asleep hold noWake => ?_, fun deliver asleep wake => ?_⟩
    · simp [Offer.outcome, discard, Delivery.nothing]
    · rw [← decide_, decide_of_detached detached]; rfl
    · simp only [Offer.outcome, deliver, active]; rfl
    · rw [outcome_of_asleep asleep deliver, noHold, noWake]; rfl
    · rw [outcome_of_asleep asleep deliver, if_pos (by simp [hold]), if_neg (by simp [noWake])]; rfl
    · rw [outcome_of_asleep asleep deliver, if_pos (by simp [wake]), if_pos wake]; rfl

/-! ## The pool settings (04, R68 to R70) -/

theorem portOf_eq_none_or {letter code : Byte} (out : 3 < letter.toNat ∨ 1 < code.toNat) :
    portOf letter = none ∨ Policy.ofCode code = none :=
  out.imp portOf_above Policy.ofCode_above

section
variable {p q : Port} {letter reserve limit code : Byte} {policy : Policy} {s : State}

theorem setReserveBody_noLease (foreign : s.line.lease ≠ some p) :
    setReserveBody p [letter, reserve, limit, code] s = refuse s .noLease := by
  simp [setReserveBody, State.holds, foreign]

variable (holds : s.line.lease = some p)
include holds

theorem setReserveBody_outOfRange
    (out : ¬poolSettingsOk reserve.toNat limit.toNat ∨ 3 < letter.toNat ∨ 1 < code.toNat) :
    setReserveBody p [letter, reserve, limit, code] s = refuse s .outOfRange := by
  simp only [setReserveBody, State.holds, holds, BEq.rfl, Bool.not_true, Bool.false_eq_true, if_false, octetAt_cons_zero,
    octetAt_cons_succ]
  split
  · next hq hpolicy =>
    refine if_pos ?_
    rcases out with settings | above | above
    · simp only [poolSettingsOk] at settings
      omega
    · simp [portOf_above above] at hq
    · simp [Policy.ofCode_above above] at hpolicy
  · rfl

theorem setReserveBody_inRange (inRange : poolSettingsOk reserve.toNat limit.toNat) :
    setReserveBody p [portCode q, reserve, limit, policy.code] s =
      let t := s.setRx q ⟨(s.rx.get q).queue, reserve.toNat, limit.toNat, policy⟩
      if t.freeCount < t.outstanding then refuse s .reserveUnavailable else accept t [] := by
  simp only [setReserveBody, State.holds, holds, BEq.rfl, Bool.not_true, Bool.false_eq_true, if_false, octetAt_cons_zero,
    octetAt_cons_succ, portOf_portCode, Policy.ofCode_code]
  refine if_neg ?_
  simp only [poolSettingsOk] at inRange
  omega

end

/-- The headroom after new settings is below 0 exactly when the queues would claim more than the pool. -/
theorem reserve_unavailable_iff {s : State} (q : Port) (reserve limit : Nat) (policy : Policy)
    (held : sumPorts s.occupancy ≤ 128) :
    let t := s.setRx q ⟨(s.rx.get q).queue, reserve, limit, policy⟩
    t.freeCount < t.outstanding ↔
      128 < sumPorts (fun r => max (if r = q then reserve else (s.rx.get r).reserve) (s.rx.get r).queue.length) := by
  intro t
  have occupancy : sumPorts t.occupancy = sumPorts s.occupancy := by cases q <;> rfl
  have claimed : t.claimed =
      sumPorts (fun r => max (if r = q then reserve else (s.rx.get r).reserve) (s.rx.get r).queue.length) := by
    cases q <;> rfl
  have covered := t.covered_iff
  rw [← claimed]
  simp only [Config.poolBuffers, occupancy] at covered
  omega

/-- Settles O28: the checks of SET_RESERVE in their order, and READ_POOL by its record. -/
theorem poolSettings : Obligations.PoolSettings := by
  refine ⟨fun p q reserve limit policy filler s active held => ⟨fun letter code => ⟨fun foreign => ?_, fun holds out => ?_⟩,
    fun holds inRange above => ?_, fun holds inRange below => ?_⟩, fun p filler s active => ?_⟩
  · exact exec_active .setReserve active (by simp) rfl rfl (setReserveBody_noLease foreign)
  · exact exec_active .setReserve active (by simp) rfl rfl (setReserveBody_outOfRange holds out)
  · refine exec_active .setReserve active (by simp) rfl rfl ((setReserveBody_inRange (s := s.found p _) holds inRange).trans ?_)
    exact if_pos ((reserve_unavailable_iff q _ _ _ held).2 above)
  · refine exec_active .setReserve active (by simp) rfl rfl ((setReserveBody_inRange (s := s.found p _) holds inRange).trans ?_)
    exact if_neg ((reserve_unavailable_iff q _ _ _ held).not.2 (Nat.not_lt.2 below))
  · exact exec_active .readPool active (by simp) rfl rfl rfl

end Sys2Proof.Machine

/-! PROOF. The commands of the transmit queues, the arbiter, and the course of an attempt (05; 01, R12 to R19; 06, R110). -/

namespace Sys2Proof.Machine

/-! ## Entries appended (R77, R78) -/

theorem appendTx_of_empty {p : Port} {s : State} (empty : (s.tx.get p).entries = []) (more : List TxEntry) :
    appendTx p more s =
      { s with tx := s.tx.set p ⟨more, some s.nextCandidacy⟩, nextCandidacy := s.nextCandidacy + 1 } := by
  simp only [appendTx, empty, List.isEmpty_nil, if_true]
  rfl

theorem appendTx_of_filled {p : Port} {s : State} (filled : (s.tx.get p).entries ≠ []) (more : List TxEntry) :
    appendTx p more s = s.setTx p ⟨(s.tx.get p).entries ++ more, (s.tx.get p).headSince⟩ := by
  simp only [appendTx, List.isEmpty_iff, if_neg filled]

/-! ## SEND (R76, R77) -/

/-- The kind a SEND names. -/
def sendKind (query : Bool) : Kind := if query then .query else .data

section
variable {p : Port} {query : Bool} {l : Label} {payload : List Byte} {s : State} (short : payload.length ≤ 16)
include short

/-- SEND inside its ranges: the translation decides, then the room. -/
theorem sendBody_inRange :
    sendBody p (attachParameters (sendKind query).code (l.setWidth 16) payload) s =
      match translate (s.windows.get p) (if query then .query else .data) l with
      | .fails c => refuse s c
      | .label line =>
        if 8 ≤ (s.tx.get p).entries.length then refuse s .queueFull
        else
          let t := appendTx p [⟨sendKind query, line, l, payload, 0, s.stamp⟩] s
          accept t (label2 line ++ [oct (t.tx.get p).entries.length]) := by
  have allowed : ¬(sendKind query = .wake ∨ Config.maxPayload < payload.length) := by
    simp only [Config.maxPayload, not_or, Nat.not_lt]
    exact ⟨by cases query <;> nofun, short⟩
  have permission : (if sendKind query = .data then Permission.data else .query) = if query then .query else .data := by
    cases query <;> rfl
  simp only [sendBody, octetAt_attachParameters, Kind.ofCode_code, wordAt_attachParameters, labelOf_label,
    drop_attachParameters, if_neg allowed, permission]
  rfl

theorem sendBody_fails {c : ResultCode} (fails : translate (s.windows.get p) (if query then .query else .data) l = .fails c) :
    sendBody p (attachParameters (sendKind query).code (l.setWidth 16) payload) s = refuse s c := by
  rw [sendBody_inRange short, fails]

variable {line : Label} (label : translate (s.windows.get p) (if query then .query else .data) l = .label line)
include label

theorem sendBody_full (full : 8 ≤ (s.tx.get p).entries.length) :
    sendBody p (attachParameters (sendKind query).code (l.setWidth 16) payload) s = refuse s .queueFull := by
  rw [sendBody_inRange short, label]
  exact if_pos full

theorem sendBody_empty (empty : (s.tx.get p).entries = []) :
    sendBody p (attachParameters (sendKind query).code (l.setWidth 16) payload) s =
      accept { s with
        tx := s.tx.set p ⟨[⟨sendKind query, line, l, payload, 0, s.stamp⟩], some s.nextCandidacy⟩
        nextCandidacy := s.nextCandidacy + 1 } (label2 line ++ [1]) := by
  rw [sendBody_inRange short, label]
  refine (if_neg (by simp [empty])).trans ?_
  simp only [appendTx_of_empty empty, Quad.get_set_same]
  rfl

theorem sendBody_filled (filled : (s.tx.get p).entries ≠ []) (room : (s.tx.get p).entries.length < 8) :
    sendBody p (attachParameters (sendKind query).code (l.setWidth 16) payload) s =
      accept (s.setTx p ⟨(s.tx.get p).entries ++ [⟨sendKind query, line, l, payload, 0, s.stamp⟩], (s.tx.get p).headSince⟩)
        (label2 line ++ [oct ((s.tx.get p).entries.length + 1)]) := by
  rw [sendBody_inRange short, label]
  refine (if_neg (Nat.not_le.2 room)).trans ?_
  simp only [appendTx_of_filled filled, State.setTx_tx, Quad.get_set_same, List.length_append, List.length_singleton]

end

theorem sendBody_outOfRange {kind : Byte} {w : Word16} {payload : List Byte}
    (out : 1 < kind.toNat ∨ 16383 < w.toNat ∨ 16 < payload.length) (p : Port) (s : State) :
    sendBody p (attachParameters kind w payload) s = refuse s .outOfRange := by
  simp only [sendBody, octetAt_attachParameters, wordAt_attachParameters, drop_attachParameters]
  split
  · next k l hk hl =>
    refine if_pos ?_
    rcases out with above | above | long
    · refine .inl ?_
      unfold Kind.ofCode at hk
      split at hk
      · omega
      · omega
      · cases hk
        rfl
      · cases hk
    · simp [labelOf_above above] at hl
    · exact .inr long
  · rfl

/-- Settles O30: the block on the parameters read back. -/
theorem sendTaken : Obligations.SendTaken := by
  refine ⟨fun p query l payload filler s active short => ?_, fun p kind w payload filler s active length out => ?_⟩
  · have answers {t : State} {r : Response} := exec_active (filler := filler) (t := t) (r := r) .send
      (ps := attachParameters (sendKind query).code (l.setWidth 16) payload) active
      (by rw [length_attachParameters]; omega) (accepts_attachParameters _ _ _ (by omega)) rfl
    exact ⟨fun c fails => answers (sendBody_fails (s := s.found p _) short fails),
      fun line label full => answers (sendBody_full (s := s.found p _) short label full),
      fun line label empty => answers (sendBody_empty (s := s.found p _) short label empty),
      fun line label filled room => answers (sendBody_filled (s := s.found p _) short label filled room)⟩
  · exact exec_active .send (ps := attachParameters kind w payload) active (by rw [length_attachParameters]; omega)
      (accepts_attachParameters _ _ _ (by omega)) rfl (sendBody_outOfRange out p _)

/-! ## SEND_WAKE, TX_FLUSH and TX_STATUS (R78 to R80) -/

theorem State.headInFlight_iff (s : State) (p : Port) :
    s.headInFlight p = true ↔ ∃ r, s.line.inFlight = some r ∧ r.source = .queueHead p := by
  simp only [State.headInFlight, State.source, beq_iff_eq]
  cases s.line.inFlight <;> simp

theorem State.headInFlight_eq_false {s : State} {p : Port}
    (h : ¬∃ r, s.line.inFlight = some r ∧ r.source = .queueHead p) : s.headInFlight p = false :=
  Bool.eq_false_iff.2 ((s.headInFlight_iff p).not.2 h)

/-- Settles O31: each block by the queue it finds. -/
theorem transmitQueueCommands : Obligations.TransmitQueueCommands := by
  refine ⟨fun p filler s active => ?_, fun p filler s active => ?_⟩
  · refine ⟨fun full => ?_, fun empty => ?_, fun filled room => ?_⟩
    · exact exec_active .sendWake active (by simp) rfl rfl (if_pos full)
    · refine exec_active .sendWake active (by simp) rfl rfl ((if_neg (by simp [empty])).trans ?_)
      simp only [appendTx_of_empty (s := s.found p _) empty, Quad.get_set_same]
      rfl
    · refine exec_active .sendWake active (by simp) rfl rfl ((if_neg (Nat.not_lt.2 room)).trans ?_)
      simp only [appendTx_of_filled (s := s.found p _) filled, State.setTx_tx, Quad.get_set_same, List.length_append,
        List.length_cons, List.length_nil]
      rfl
  · refine ⟨fun idle => ?_, fun e more flies queue => ?_, fun empty => ?_, fun e more queue => ⟨fun flies => ?_, fun idle => ?_⟩⟩
    · refine exec_active .txFlush active (by simp) rfl rfl ?_
      simp only [Command.body, txFlushBody, State.found_headInFlight, State.headInFlight_eq_false idle]
      rfl
    · refine exec_active .txFlush active (by simp) rfl rfl ?_
      simp only [Command.body, txFlushBody, State.found_headInFlight, (s.headInFlight_iff p).2 flies, State.found_tx, queue,
        List.take_succ_cons, List.take_zero, List.length_cons, Nat.add_sub_cancel]
      rfl
    · refine exec_active .txStatus active (by simp) rfl rfl ?_
      simp only [Command.body, txStatusBody, State.found_tx, empty]
      rfl
    · refine exec_active .txStatus active (by simp) rfl rfl ?_
      simp only [Command.body, txStatusBody, State.found_tx, queue, State.found_headInFlight, (s.headInFlight_iff p).2 flies]
      rfl
    · refine exec_active .txStatus active (by simp) rfl rfl ?_
      simp only [Command.body, txStatusBody, State.found_tx, queue, State.found_headInFlight,
        State.headInFlight_eq_false idle]
      rfl

end Sys2Proof.Machine

/-! PROOF. The arbiter's choice and the course of an attempt (05, R81 to R86; 01, R12 to R19; 06, R110). -/

namespace Sys2Proof.Machine

/-! ## The candidates (R81, R83) -/

theorem mem_headCandidate {s : State} {p : Port} {c : Candidate} :
    c ∈ s.headCandidate p ↔ ∃ e more, (s.tx.get p).entries = e :: more ∧ s.source ≠ .queueHead p ∧
      c = ⟨⟨e.kind, e.lineLabel, e.payload⟩, .queueHead p, p, (s.tx.get p).headSince.getD 0⟩ := by
  unfold State.headCandidate
  split
  · next empty => simp [empty]
  · next e more queue =>
    simp only [State.headInFlight, beq_iff_eq]
    split
    · next flies => simp [flies]
    · next waits => simp [queue, waits]

theorem mem_dueCandidate {s : State} {n : Nat} {c : Candidate} :
    c ∈ s.dueCandidate n ↔ ∃ sl d, s.slot n = some sl ∧ sl.due = some d ∧ s.source ≠ .dueEntry n ∧
      c = ⟨⟨.data, sl.lineLabel, d.payload⟩, .dueEntry n, sl.owner, d.candidacy⟩ := by
  unfold State.dueCandidate
  split
  · next free => simp [free]
  · next sl live =>
    split
    · next none_ => simp [live, none_]
    · next d due =>
      simp only [State.dueInFlight, beq_iff_eq]
      split
      · next flies => simp [flies]
      · next waits => simp [live, due, waits]

theorem Port.mem_list (p : Port) : p ∈ Port.list := by cases p <;> simp [Port.list]

theorem mem_candidates {s : State} {c : Candidate} :
    c ∈ s.candidates ↔ (∃ p, c ∈ s.headCandidate p) ∨ ∃ n, n < Config.slotCount ∧ c ∈ s.dueCandidate n := by
  simp only [State.candidates, List.mem_append, List.mem_flatMap, Port.mem_list, true_and, List.mem_range]

/-! ## The choice (R82) -/

/-- The order of R82: the lower label, or the same label and no later candidacy. -/
def Candidate.Leads (x y : Candidate) : Prop :=
  x.telegram.label.toNat < y.telegram.label.toNat ∨ (x.telegram.label = y.telegram.label ∧ x.since ≤ y.since)

theorem Candidate.leads_refl (x : Candidate) : x.Leads x := .inr ⟨rfl, Nat.le_refl _⟩

theorem Candidate.Leads.trans {x y z : Candidate} (h : x.Leads y) (k : y.Leads z) : x.Leads z := by
  simp only [Candidate.Leads, ← BitVec.toNat_inj] at *
  omega

theorem Candidate.leads_of_before {x y : Candidate} (h : x.before y = true) : x.Leads y := by
  simp only [Candidate.before, Bool.or_eq_true, Bool.and_eq_true, decide_eq_true_eq, beq_iff_eq] at h
  exact h.imp_right fun ⟨same, earlier⟩ => ⟨same, Nat.le_of_lt earlier⟩

theorem Candidate.leads_of_not_before {x y : Candidate} (h : ¬x.before y = true) : y.Leads x := by
  simp only [Candidate.before, Bool.or_eq_true, Bool.and_eq_true, decide_eq_true_eq, beq_iff_eq,
    ← BitVec.toNat_inj] at h
  simp only [Candidate.Leads, ← BitVec.toNat_inj]
  omega

theorem choose_eq_none_iff (cs : List Candidate) : choose cs = none ↔ cs = [] := by
  cases cs with
  | nil => simp [choose]
  | cons c rest =>
    simp only [choose, reduceCtorEq, iff_false]
    split
    · nofun
    · split <;> nofun

theorem choose_leads {cs : List Candidate} {c : Candidate} (h : choose cs = some c) : c ∈ cs ∧ ∀ d ∈ cs, c.Leads d := by
  induction cs generalizing c with
  | nil => simp [choose] at h
  | cons x rest ih =>
    cases chosen : choose rest with
    | none =>
      obtain rfl := (choose_eq_none_iff rest).1 chosen
      obtain rfl : x = c := by simpa [choose] using h
      simp [Candidate.leads_refl]
    | some d =>
      obtain ⟨mem, first⟩ := ih chosen
      by_cases before : d.before x = true
      · obtain rfl : d = c := by simpa [choose, chosen, before] using h
        exact ⟨.tail _ mem, List.forall_mem_cons.2 ⟨Candidate.leads_of_before before, first⟩⟩
      · obtain rfl : x = c := by simpa [choose, chosen, before] using h
        have leads := Candidate.leads_of_not_before before
        exact ⟨.head _, List.forall_mem_cons.2 ⟨x.leads_refl, fun y hy => leads.trans (first y hy)⟩⟩

/-- Settles O32: the candidates of the queues and of the slots, and the choice as the first in the order of R82. -/
theorem arbiterChooses : Obligations.ArbiterChooses := by
  refine ⟨fun s c full => ?_, fun cs => ⟨fun c chosen => choose_leads chosen, choose_eq_none_iff cs⟩⟩
  rw [mem_candidates]
  simp only [mem_headCandidate, mem_dueCandidate]
  refine or_congr Iff.rfl ⟨fun ⟨n, _, due⟩ => ⟨n, due⟩, fun ⟨n, due⟩ => ⟨n, ?_, due⟩⟩
  obtain ⟨sl, d, live, -⟩ := due
  exact (State.slot_lt live).trans_eq full

/-! ## The beginning of an attempt (R12, R14, R19) -/

theorem transmissionStart_of_may {s : State} (may : s.mayTransmit = true) :
    transmissionStart s = match choose s.candidates with | some c => beginAttempt c s | none => s :=
  if_pos may

/-- Settles O33: no transmission, no candidate, and the chosen candidate by the line's mode. -/
theorem transmissionBegins : Obligations.TransmissionBegins := by
  intro s live
  have begins : exec .transmissionStart s = .next (transmissionStart s) :=
    congrArg Host.Outcome.next (whenLive_of_none _ live)
  refine ⟨fun not => ?_, fun may none_ => ?_, fun c may chosen normal => ?_, fun c may chosen loopback => ?_⟩
  · rw [begins, transmissionStart, if_neg (s.mayTransmit_iff.not.2 not)]
  · rw [begins, transmissionStart_of_may (s.mayTransmit_iff.2 may), none_]
  · rw [begins, transmissionStart_of_may (s.mayTransmit_iff.2 may), chosen]
    exact congrArg Host.Outcome.next (if_neg (by rw [normal]; nofun))
  · rw [begins, transmissionStart_of_may (s.mayTransmit_iff.2 may), chosen]
    exact congrArg Host.Outcome.next (if_pos loopback)

/-! ## The end of an attempt (R3, R4, R8, R10, R13, R15, R16) -/

section
variable {s : State} {r : InFlight} (flies : s.line.inFlight = some r)

theorem endAttempt_restart {u : LineUnit} (synced : u.state = .synced) :
    u.endAttempt.restartSilence =
      { u with inFlight := none, mode := u.pendingMode.getD u.mode, pendingMode := none
               silenceTimer := some u.silenceTime, silentFlag := false } := if_pos synced

theorem endSent_eq (synced : s.line.state = .synced) :
    endSent r s =
      reportSent r.source (offer ⟨r.telegram, s.stamp, some r.origin⟩ false { s with line := { s.line with
        inFlight := none, mode := s.line.pendingMode.getD s.line.mode, pendingMode := none
        silenceTimer := some s.line.silenceTime, silentFlag := false, errorCount := s.line.errorCount - 1 } }) := by
  have line : (s.line.endAttempt.subError).restartSilence =
      { s.line with
        inFlight := none, mode := s.line.pendingMode.getD s.line.mode, pendingMode := none
        silenceTimer := some s.line.silenceTime, silentFlag := false, errorCount := s.line.errorCount - 1 } := by
    rw [LineUnit.subError, if_pos (show s.line.endAttempt.state = .synced from synced)]
    exact if_pos synced
  rw [endSent, State.modLine, line]

/-- The line unit as an echo error leaves it, before the line is checked for DEGRADED. -/
theorem errorLine_eq {u : LineUnit} (synced : u.state = .synced) :
    ((u.endAttempt.restartSilence).addErrors 2).abandonReception =
      { u with
        inFlight := none, mode := u.pendingMode.getD u.mode, pendingMode := none
        silenceTimer := some u.silenceTime, silentFlag := false, errorCount := min 32 (u.errorCount + 2)
        receiverPeriod := u.receiverPeriod + 1 } := by
  rw [endAttempt_restart synced, LineUnit.addErrors]
  exact congrArg LineUnit.abandonReception (if_pos synced)

theorem endError_below (synced : s.line.state = .synced) (below : s.line.errorCount + 2 < 32) :
    endError r s =
      reportError r.source { s with line := { s.line with
        inFlight := none, mode := s.line.pendingMode.getD s.line.mode, pendingMode := none
        silenceTimer := some s.line.silenceTime, silentFlag := false, errorCount := s.line.errorCount + 2
        receiverPeriod := s.line.receiverPeriod + 1 } } := by
  rw [endError, State.modLine, errorLine_eq synced, Nat.min_eq_right (Nat.le_of_lt below), checkDegraded, if_neg]
  rw [reportError_line]
  exact fun ⟨_, limit⟩ => Nat.ne_of_lt below limit

theorem endError_above (synced : s.line.state = .synced) (above : 32 ≤ s.line.errorCount + 2) :
    endError r s =
      enterDegraded (reportError r.source { s with line := { s.line with
        inFlight := none, mode := s.line.pendingMode.getD s.line.mode, pendingMode := none
        silenceTimer := some s.line.silenceTime, silentFlag := false, errorCount := 32
        receiverPeriod := s.line.receiverPeriod + 1 } }) := by
  rw [endError, State.modLine, errorLine_eq synced, Nat.min_eq_left above, checkDegraded, if_pos]
  rw [reportError_line]
  exact ⟨synced, rfl⟩

theorem abortAttempt_eq (flies : s.line.inFlight = some r) :
    abortAttempt s = reportAborted r.source (s.modLine (fun u => u.endAttempt.restartSilence)) := by
  rw [abortAttempt, flies]

end

theorem whenLive_of_idle {f : State → State} {s : State} (same : f s = s) : whenLive f s = s := by
  unfold whenLive
  split
  · exact same
  · rfl

/-- Settles O34: each end by the line unit it leaves. -/
theorem attemptEnds : Obligations.AttemptEnds := by
  refine ⟨fun r s live flies synced => ?_, fun s idle => ?_⟩
  · have runs (f : State → State) : whenLive f s = f s := whenLive_of_none f live
    refine ⟨?_, fun winner lower => ?_, fun winner other => ?_, fun below => ?_, fun above => ?_, ?_⟩
    · refine congrArg Host.Outcome.next ((runs _).trans ?_)
      rw [attemptSent, flies]
      exact endSent_eq synced
    · refine congrArg Host.Outcome.next ((runs _).trans ?_)
      simp only [contend, flies, if_pos lower, endLost, State.modLine, endAttempt_restart synced]
    · refine congrArg Host.Outcome.next ((runs _).trans ?_)
      simp only [contend, flies, if_neg (Nat.not_lt.2 other)]
    · refine congrArg Host.Outcome.next ((runs _).trans ?_)
      rw [echoError, flies]
      exact endError_below synced below
    · refine congrArg Host.Outcome.next ((runs _).trans ?_)
      rw [echoError, flies]
      exact endError_above synced above
    · rw [abortAttempt_eq flies, State.modLine, endAttempt_restart synced]
  · refine ⟨?_, ?_, fun winner => ?_, ?_⟩
    · exact congrArg Host.Outcome.next (whenLive_of_idle (by rw [attemptSent, idle]))
    · exact congrArg Host.Outcome.next (whenLive_of_idle (by rw [echoError, idle]))
    · exact congrArg Host.Outcome.next (whenLive_of_idle (by rw [contend, idle]))
    · rw [abortAttempt, idle]

/-! ## The outcome reported (R84 to R86, R110) -/

theorem removeHead_eq {p : Port} {e : TxEntry} {more : List TxEntry} {s : State}
    (queue : (s.tx.get p).entries = e :: more) :
    removeHead p s =
      if more = [] then s.setTx p ⟨[], none⟩
      else { s with tx := s.tx.set p ⟨more, some s.nextCandidacy⟩, nextCandidacy := s.nextCandidacy + 1 } := by
  cases more <;> simp only [removeHead, queue, List.tail_cons] <;> rfl

/-- Settles O35: the head, the due entry, and the cut attempt that reports nothing. -/
theorem outcomeReported : Obligations.OutcomeReported := by
  refine ⟨fun p e more s queue => ?_, fun n sl d s live due => ?_, fun s => ⟨rfl, rfl, rfl⟩⟩
  · intro removed
    have head : removeHead p s = removed := removeHead_eq queue
    refine ⟨?_, fun few => ?_, fun many => ?_, rfl⟩
    · simp only [reportSent, headSent, queue, head]
    · simp only [reportError, headError, queue]
      exact if_pos few
    · simp only [reportError, headError, queue, head]
      exact if_neg (Nat.not_lt.2 many)
  · refine ⟨?_, fun few => ?_, fun many => ?_, ?_⟩
    · simp only [reportSent, dueSent, State.modSlot_of_some live, due]
    · simp only [reportError, dueError, live, due]
      exact if_pos few
    · simp only [reportError, dueError, live, due]
      exact if_neg (Nat.not_lt.2 many)
    · exact State.modSlot_of_some live _

end Sys2Proof.Machine

/-! PROOF. The slot commands: their checks in order and what each writes (06, R95 to R100, R106, R107, R117, R118). -/

namespace Sys2Proof.Machine

/-! ## The slot a command names (R96) -/

/-- The checks that every slot command shares: the number in its range, the slot live, the port its owner. -/
def namedSlot (p : Port) (n : Nat) (s : State) (k : Slot → Reply) : Reply :=
  if Config.slotCount ≤ n then refuse s .outOfRange else ownedSlot p n s k

section
variable {p : Port} {n : Nat} {s : State} {k : Slot → Reply}

theorem not_slotCount_le (inside : n ≤ 23) : ¬Config.slotCount ≤ n := Nat.not_le.2 (Nat.lt_succ_of_le inside)

theorem namedSlot_above (above : 23 < n) : namedSlot p n s k = refuse s .outOfRange := if_pos above

theorem namedSlot_free (inside : n ≤ 23) (free : s.slot n = none) : namedSlot p n s k = refuse s .badIndex := by
  rw [namedSlot, if_neg (not_slotCount_le inside), ownedSlot, free]

theorem namedSlot_foreign (inside : n ≤ 23) {sl : Slot} (live : s.slot n = some sl) (foreign : sl.owner ≠ p) :
    namedSlot p n s k = refuse s .notOwner := by
  rw [namedSlot, if_neg (not_slotCount_le inside), ownedSlot, live]
  exact if_neg foreign

theorem namedSlot_own (inside : n ≤ 23) {sl : Slot} (live : s.slot n = some sl) (own : sl.owner = p) :
    namedSlot p n s k = k sl := by
  rw [namedSlot, if_neg (not_slotCount_le inside), ownedSlot, live]
  exact if_pos own

theorem namedSlot_found {rest : List Byte} (inside : n ≤ 23) {sl : Slot} (live : s.slot n = some sl) (own : sl.owner = p) :
    namedSlot p n (s.found p rest) k = k sl := namedSlot_own (s := s.found p rest) inside live own

end

/-! ## The parameters on the wire -/

/-- The parameters of SLOT_CREATE: local label, period, offset, length, payload. -/
def createParameters (w period offset : Word16) (payload : List Byte) : List Byte :=
  octets2 w ++ octets2 period ++ octets2 offset ++ [oct payload.length] ++ payload

/-- The parameters of SLOT_CONFIGURE: slot number, mode, start source, edge, trigger action, offset, slot flags, takeover
after. -/
def configureParameters (n mode source edge act : Byte) (offset : Word16) (flags after : Byte) : List Byte :=
  [n, mode, source, edge, act] ++ octets2 offset ++ [flags, after]

section
variable (w period offset : Word16) (payload : List Byte)

@[simp] theorem wordAt_createParameters_label : wordAt (createParameters w period offset payload) 0 = w :=
  high_append_low w

@[simp] theorem wordAt_createParameters_period : wordAt (createParameters w period offset payload) 2 = period :=
  high_append_low period

@[simp] theorem wordAt_createParameters_offset : wordAt (createParameters w period offset payload) 4 = offset :=
  high_append_low offset

@[simp] theorem drop_createParameters : (createParameters w period offset payload).drop 7 = payload := rfl

@[simp] theorem length_createParameters : (createParameters w period offset payload).length = payload.length + 7 := rfl

theorem accepts_createParameters (h : payload.length < 256) :
    Command.slotCreate.frame.accepts (createParameters w period offset payload) = true := by
  have length_octet : octetAt (createParameters w period offset payload) 6 = oct payload.length := rfl
  simp [Command.frame, FrameLen.accepts, length_octet, toNat_oct h, Nat.add_comm]

end

/-! ## SLOT_CREATE and SLOT_REMOVE (R95, R117) -/

theorem slotOfLabel_eq_none_of {s : State} {l : Label} (fresh : ∀ n sl, s.slot n = some sl → sl.lineLabel ≠ l) :
    s.slotOfLabel l = none := by
  refine List.findIdx?_eq_none_iff.2 fun x mem => ?_
  cases x with
  | none => rfl
  | some sl =>
    obtain ⟨n, _, here⟩ := List.getElem_of_mem mem
    have live : s.slot n = some sl := State.slot_eq_some.2 (List.getElem?_eq_some_iff.2 ⟨_, here⟩)
    simpa using fresh n sl live

theorem slotCreateBody_outOfRange {w period offset : Word16} {payload : List Byte}
    (out : 16383 < w.toNat ∨ 16 < payload.length ∨ ¬(1 ≤ period.toNat ∧ period.toNat ≤ 60000 ∧ offset.toNat < period.toNat))
    (p : Port) (s : State) : slotCreateBody p (createParameters w period offset payload) s = refuse s .outOfRange := by
  simp only [slotCreateBody, wordAt_createParameters_label, wordAt_createParameters_period, wordAt_createParameters_offset,
    drop_createParameters]
  split
  · rfl
  · next l label =>
    refine if_pos ?_
    have within : ¬16383 < w.toNat := fun above => by simp [labelOf_above above] at label
    simp only [Config.maxPeriod, Config.maxPayload]
    omega

section
variable {p : Port} {l : Label} {period offset : Word16} {payload : List Byte} {s : State} (short : payload.length ≤ 16)
  (inRange : 1 ≤ period.toNat ∧ period.toNat ≤ 60000 ∧ offset.toNat < period.toNat)
include short inRange

/-- SLOT_CREATE inside its ranges: the translation, the label's use, the room. -/
theorem slotCreateBody_inRange :
    slotCreateBody p (createParameters (l.setWidth 16) period offset payload) s =
      match translate (s.windows.get p) .slot l with
      | .fails c => refuse s c
      | .label line =>
        if (s.slotOfLabel line).isSome then refuse s .labelInUse
        else
          match s.slots.findIdx? Option.isNone with
          | none => refuse s .slotFull
          | some n =>
            accept (s.setSlot n (some (Slot.created p line l period.toNat offset.toNat payload))) (oct n :: label2 line) := by
  have allowed : ¬(period.toNat = 0 ∨ Config.maxPeriod < period.toNat ∨ period.toNat ≤ offset.toNat ∨
      Config.maxPayload < payload.length) := by
    simp only [Config.maxPeriod, Config.maxPayload]
    omega
  simp only [slotCreateBody, wordAt_createParameters_label, wordAt_createParameters_period, wordAt_createParameters_offset,
    drop_createParameters, labelOf_label]
  exact if_neg allowed

theorem slotCreateBody_fails {c : ResultCode} (fails : translate (s.windows.get p) .slot l = .fails c) :
    slotCreateBody p (createParameters (l.setWidth 16) period offset payload) s = refuse s c := by
  rw [slotCreateBody_inRange short inRange, fails]

variable {line : Label} (label : translate (s.windows.get p) .slot l = .label line)
include label

theorem slotCreateBody_labelInUse {n : Nat} {sl : Slot} (live : s.slot n = some sl) (same : sl.lineLabel = line) :
    slotCreateBody p (createParameters (l.setWidth 16) period offset payload) s = refuse s .labelInUse := by
  have used : (s.slotOfLabel line).isSome = true := Option.isSome_iff_ne_none.2 fun fresh =>
    slotOfLabel_eq_none fresh live same
  rw [slotCreateBody_inRange short inRange, label]
  exact if_pos used

variable (fresh : ∀ n sl, s.slot n = some sl → sl.lineLabel ≠ line)
include fresh

theorem slotCreateBody_slotFull (full : ∀ x ∈ s.slots, x ≠ none) :
    slotCreateBody p (createParameters (l.setWidth 16) period offset payload) s = refuse s .slotFull := by
  rw [slotCreateBody_inRange short inRange, label]
  refine (if_neg (by simp [slotOfLabel_eq_none_of fresh])).trans ?_
  rw [findIdx?_isNone_of_full full]

theorem slotCreateBody_taken {n : Nat} (free : s.slots[n]? = some none) (lowest : ∀ m, m < n → (s.slot m).isSome = true) :
    slotCreateBody p (createParameters (l.setWidth 16) period offset payload) s =
      accept (s.setSlot n (some (Slot.created p line l period.toNat offset.toNat payload))) (oct n :: label2 line) := by
  rw [slotCreateBody_inRange short inRange, label]
  refine (if_neg (by simp [slotOfLabel_eq_none_of fresh])).trans ?_
  rw [findIdx?_isNone_of_lowest free lowest]

end

theorem withdrawDue_of_live {n : Nat} {s : State} {sl : Slot} (live : s.slot n = some sl) :
    withdrawDue n s = (cut (.dueEntry n) s).setSlot n (some { sl with due := none }) :=
  State.modSlot_of_some ((cut_slot _ _ _).trans live) _

/-- Settles O36: the checks of SLOT_CREATE in their order, then the removal of an owned slot. -/
theorem slotCreatedAndRemoved : Obligations.SlotCreatedAndRemoved := by
  refine ⟨fun p l period offset payload filler s active short => ?_,
    fun p w period offset payload filler s active length out => ?_, fun p n sl filler s active inside live own => ?_⟩
  · have answers {t : State} {r : Response} := exec_active (filler := filler) (t := t) (r := r) .slotCreate
      (ps := createParameters (l.setWidth 16) period offset payload) active
      (by rw [length_createParameters]; omega) (accepts_createParameters _ _ _ _ (by omega)) rfl
    exact ⟨fun out => answers (slotCreateBody_outOfRange (.inr (.inr out)) p _),
      fun c inRange fails => answers (slotCreateBody_fails (s := s.found p _) short inRange fails),
      fun line n sl inRange label live same =>
        answers (slotCreateBody_labelInUse (s := s.found p _) short inRange label live same),
      fun line inRange label fresh full =>
        answers (slotCreateBody_slotFull (s := s.found p _) short inRange label fresh full),
      fun line n inRange label fresh free lowest =>
        answers (slotCreateBody_taken (s := s.found p _) short inRange label fresh free lowest)⟩
  · exact exec_active .slotCreate (ps := createParameters w period offset payload) active
      (by rw [length_createParameters]; omega) (accepts_createParameters _ _ _ _ (by omega)) rfl
      (slotCreateBody_outOfRange (out.imp_right .inl) p _)
  · intro rest t
    have removes : slotRemoveBody p [n] (s.found p rest) = accept (removeSlot n.toNat (s.found p rest)) [] :=
      namedSlot_found inside live own
    have cleared : (withdrawDue n.toNat (s.found p rest)).setSlot n.toNat none = t := by
      rw [withdrawDue_of_live (s := s.found p rest) live, State.setSlot_setSlot]
    refine ⟨fun bare => exec_active .slotRemove active (by simp) rfl rfl (removes.trans ?_),
      fun si covered => exec_active .slotRemove active (by simp) rfl rfl (removes.trans ?_)⟩
    · simp only [removeSlot, State.found_slot, live, bare, cleared, accept]
    · simp only [removeSlot, State.found_slot, live, covered, cleared, accept]

end Sys2Proof.Machine

/-! PROOF. The commands on a live slot: how they are refused and what they write (06, R96 to R100, R106, R107, R118). -/

namespace Sys2Proof.Machine

/-! ## Each block behind the shared checks -/

section
variable {p : Port} {n : Byte} {payload : List Byte} {s : State}

theorem slotRefreshBody_outOfRange (long : 16 < payload.length) :
    slotRefreshBody p (refreshParameters n payload) s = refuse s .outOfRange := if_pos (.inr long)

theorem slotRefreshBody_inRange (short : payload.length ≤ 16) :
    slotRefreshBody p (refreshParameters n payload) s =
      namedSlot p n.toNat s (fun sl => accept (s.setSlot n.toNat (some (sl.refreshed payload))) []) :=
  if_congr (or_iff_left (Nat.not_lt.2 short)) rfl rfl

theorem slotSetPeriodBody_outOfRange {period : Word16} (out : period.toNat = 0 ∨ 60000 < period.toNat) :
    slotSetPeriodBody p ([n] ++ octets2 period) s = refuse s .outOfRange := by
  have word : wordAt ([n] ++ octets2 period) 1 = period := high_append_low period
  simp only [slotSetPeriodBody, word]
  exact if_pos (.inr out)

theorem slotSetPeriodBody_inRange {period : Word16} (positive : 1 ≤ period.toNat) (bounded : period.toNat ≤ 60000) :
    slotSetPeriodBody p ([n] ++ octets2 period) s =
      namedSlot p n.toNat s (fun sl =>
        if period.toNat ≤ sl.offset then refuse s .outOfRange
        else accept (s.setSlot n.toNat (some (sl.withPeriod period.toNat))) []) := by
  have word : wordAt ([n] ++ octets2 period) 1 = period := high_append_low period
  have allowed : ¬(period.toNat = 0 ∨ Config.maxPeriod < period.toNat) :=
    not_or.2 ⟨Nat.one_le_iff_ne_zero.1 positive, Nat.not_lt.2 bounded⟩
  simp only [slotSetPeriodBody, word]
  exact if_congr (or_iff_left allowed) rfl rfl

/-- SLOT_STOP on a slot of its port, by the state and the flag (R100). -/
def stopReply (n : Nat) (s : State) (atExpiry : Bool) (sl : Slot) : Reply :=
  match sl.state, atExpiry with
  | .stopped, _ => refuse s .wrongState
  | .running, true => accept (s.setSlot n (some { sl with state := .finishing })) []
  | .finishing, true => accept s []
  | .halted .running, true => accept (s.setSlot n (some { sl with state := .halted .finishing })) []
  | .halted .finishing, true => accept s []
  | _, _ => accept (stopNow n s) []

theorem slotStopBody_flag (flag : Bool) :
    slotStopBody p [n, flagOctet flag] s = namedSlot p n.toNat s (stopReply n.toNat s flag) := by
  have octet : octetAt [n, flagOctet flag] 1 = flagOctet flag := rfl
  simp only [slotStopBody, octet, flagOf_flagOctet]
  rfl

theorem slotStopBody_outOfRange {flag : Byte} (above : 1 < flag.toNat) :
    slotStopBody p [n, flag] s = refuse s .outOfRange := by
  have octet : octetAt [n, flag] 1 = flag := rfl
  simp only [slotStopBody, octet, flagOf_above above]

end

section
variable (n mode source edge act : Byte) (offset : Word16) (flags after : Byte)

@[simp] theorem octetAt_configureParameters_slot :
    octetAt (configureParameters n mode source edge act offset flags after) 0 = n := rfl

@[simp] theorem octetAt_configureParameters_mode :
    octetAt (configureParameters n mode source edge act offset flags after) 1 = mode := rfl

@[simp] theorem octetAt_configureParameters_source :
    octetAt (configureParameters n mode source edge act offset flags after) 2 = source := rfl

@[simp] theorem octetAt_configureParameters_edge :
    octetAt (configureParameters n mode source edge act offset flags after) 3 = edge := rfl

@[simp] theorem octetAt_configureParameters_act :
    octetAt (configureParameters n mode source edge act offset flags after) 4 = act := rfl

@[simp] theorem wordAt_configureParameters :
    wordAt (configureParameters n mode source edge act offset flags after) 5 = offset := high_append_low offset

@[simp] theorem octetAt_configureParameters_flags :
    octetAt (configureParameters n mode source edge act offset flags after) 7 = flags := rfl

@[simp] theorem octetAt_configureParameters_after :
    octetAt (configureParameters n mode source edge act offset flags after) 8 = after := rfl

end

/-- A code other than that of COMMAND names a trigger pin, whose edge is read. -/
theorem edgeParameter_above {source : StartSource} {code edge : Byte} (read : StartSource.ofCode code = some source)
    (other : code.toNat ≠ 0) (above : 3 < edge.toNat) : edgeParameter source edge = none := by
  cases source with
  | command =>
    unfold StartSource.ofCode at read
    split at read <;> simp_all
  | trigger pin => exact SlotEdge.ofCode_above above

/-- A value outside the range of its field (R97, R184). -/
theorem slotSettingsOf_outOfRange {n m src edge act flags after : Byte} {offset : Word16}
    (out : 1 < m.toNat ∨ 2 < src.toNat ∨ (src.toNat ≠ 0 ∧ 3 < edge.toNat) ∨ 1 < act.toNat ∨ 3 < flags.toNat ∨
      after.toNat = 0 ∨ 7 < after.toNat) :
    slotSettingsOf (configureParameters n m src edge act offset flags after) = none := by
  simp only [slotSettingsOf, octetAt_configureParameters_mode, octetAt_configureParameters_source,
    octetAt_configureParameters_edge, octetAt_configureParameters_act, octetAt_configureParameters_flags,
    octetAt_configureParameters_after]
  split
  · next mode source act readMode readSource readAct =>
    split
    · next edge readEdge =>
      refine if_neg fun ⟨small, low, high⟩ => ?_
      rcases out with above | above | ⟨other, above⟩ | above | above
      · simp [SlotMode.ofCode_above above] at readMode
      · simp [StartSource.ofCode_above above] at readSource
      · simp [edgeParameter_above readSource other above] at readEdge
      · simp [TriggerAction.ofCode_above above] at readAct
      · omega
    · rfl
  · rfl

/-- The eight settings as their codes give them back (R97, R184). -/
theorem slotSettingsOf_parameters (n : Byte) (mode : SlotMode) (source : StartSource) (edge : Option SlotEdge)
    (act : TriggerAction) (offset : Word16) (fresh answer : Bool) {after : Nat} (low : 1 ≤ after) (high : after ≤ 7) :
    slotSettingsOf (configureParameters n mode.code source.code (SlotEdge.optCode edge) act.code offset
        (setOctet fresh answer false false) (oct after)) =
      some ⟨mode, source, if source = .command then none else edge, act, offset.toNat, fresh, answer, after⟩ := by
  have kept : edgeParameter source (SlotEdge.optCode edge) = some (if source = .command then none else edge) := by
    cases source <;> simp [edgeParameter]
  have number : (oct after).toNat = after := toNat_oct (by omega)
  simp only [slotSettingsOf, octetAt_configureParameters_mode, octetAt_configureParameters_source,
    octetAt_configureParameters_edge, octetAt_configureParameters_act, octetAt_configureParameters_flags,
    octetAt_configureParameters_after, wordAt_configureParameters, SlotMode.ofCode_code, StartSource.ofCode_code,
    TriggerAction.ofCode_code, kept, number, getLsbD_setOctet_zero, getLsbD_setOctet_one]
  exact if_pos ⟨setOctet_lt_four fresh answer, low, high⟩

/-- SLOT_CONFIGURE on a slot of its port (R97). -/
def configureReply (n : Nat) (s : State) (c : SlotSettings) (sl : Slot) : Reply :=
  if sl.state ≠ .stopped then refuse s .wrongState
  else if c.fit sl then accept (s.setSlot n (some (sl.configured c))) []
  else refuse s .outOfRange

theorem slotConfigureBody_settings {p : Port} {ps : List Byte} {s : State} {c : SlotSettings}
    (read : slotSettingsOf ps = some c) :
    slotConfigureBody p ps s = namedSlot p (octetAt ps 0).toNat s (configureReply (octetAt ps 0).toNat s c) := by
  rw [slotConfigureBody, read]
  rfl

theorem slotConfigureBody_outOfRange {p : Port} {ps : List Byte} {s : State} (read : slotSettingsOf ps = none) :
    slotConfigureBody p ps s = refuse s .outOfRange := by
  rw [slotConfigureBody, read]

/-! ## The refusals (R96) -/

/-- The six commands on a live slot answer one code when the checks they share give it. -/
theorem slotCommands_refused {p : Port} {n : Byte} {s : State} {code : ResultCode} (filler : List Byte) (active : s.Active p)
    (check : ∀ rest k, namedSlot p n.toNat (s.found p rest) k = refuse (s.found p rest) code) :
    (∀ (mode : SlotMode) (source : StartSource) (edge : Option SlotEdge) (act : TriggerAction) (offset : Word16)
        (fresh answer : Bool) (after : Nat), 1 ≤ after → after ≤ 7 →
      let rest := clockedIn (configureParameters n mode.code source.code (SlotEdge.optCode edge) act.code offset
        (setOctet fresh answer false false) (oct after)) filler
      exec (.slotConfigure p rest) s = .next (s.answered p rest ⟨code, []⟩)) ∧
    exec (.slotStart p (clockedIn [n] filler)) s = .next (s.answered p (clockedIn [n] filler) ⟨code, []⟩) ∧
    exec (.slotRemove p (clockedIn [n] filler)) s = .next (s.answered p (clockedIn [n] filler) ⟨code, []⟩) ∧
    (∀ b : Bool,
      let rest := clockedIn [n, flagOctet b] filler
      exec (.slotStop p rest) s = .next (s.answered p rest ⟨code, []⟩)) ∧
    (∀ payload : List Byte, payload.length ≤ 16 →
      let rest := clockedIn (refreshParameters n payload) filler
      exec (.slotRefresh p rest) s = .next (s.answered p rest ⟨code, []⟩)) ∧
    (∀ period : Word16, 1 ≤ period.toNat → period.toNat ≤ 60000 →
      let rest := clockedIn ([n] ++ octets2 period) filler
      exec (.slotSetPeriod p rest) s = .next (s.answered p rest ⟨code, []⟩)) := by
  refine ⟨fun mode source edge act offset fresh answer after low high => ?_, ?_, ?_, fun b => ?_, fun payload short => ?_,
    fun period positive bounded => ?_⟩
  · refine exec_active .slotConfigure active (by simp [configureParameters, octets2]) rfl rfl ?_
    exact (slotConfigureBody_settings (slotSettingsOf_parameters n mode source edge act offset fresh answer low high)).trans
      (check _ _)
  · exact exec_active .slotStart active (by simp) rfl rfl (check _ _)
  · exact exec_active .slotRemove active (by simp) rfl rfl (check _ _)
  · exact exec_active .slotStop active (by simp) rfl rfl ((slotStopBody_flag b).trans (check _ _))
  · exact exec_active .slotRefresh (ps := refreshParameters n payload) active (by rw [length_refreshParameters]; omega)
      (accepts_refreshParameters _ _ (by omega)) rfl ((slotRefreshBody_inRange short).trans (check _ _))
  · exact exec_active .slotSetPeriod active (by simp [octets2]) rfl rfl
      ((slotSetPeriodBody_inRange positive bounded).trans (check _ _))

/-! ## SLOT_READ (R118; 12, Table 12-5) -/

theorem payloadOctets_eq (x : Option (List Byte)) : payloadOctets x = oct (x.getD []).length :: x.getD [] := by
  cases x <;> rfl

theorem State.dueInFlight_iff (s : State) (n : Nat) :
    s.dueInFlight n = true ↔ ∃ r, s.line.inFlight = some r ∧ r.source = .dueEntry n := by
  simp only [State.dueInFlight, State.source, beq_iff_eq]
  cases s.line.inFlight <;> simp

section
variable {n : Byte} {s : State} (inside : n.toNat ≤ 23)
include inside

theorem slotReadBody_free (free : s.slot n.toNat = none) : slotReadBody [n] s = refuse s .badIndex := by
  have octet : octetAt [n] 0 = n := rfl
  simp only [slotReadBody, octet, free]
  exact if_neg (not_slotCount_le inside)

variable {sl : Slot} (live : s.slot n.toNat = some sl)
include live

theorem slotReadBody_covered {si : StandIn} (covered : sl.standIn = some si) :
    slotReadBody [n] s = accept s (sl.octets n (s.dueInFlight n.toNat) (oct si.coveredRun)) := by
  have octet : octetAt [n] 0 = n := rfl
  simp only [slotReadBody, octet, live, covered]
  exact if_neg (not_slotCount_le inside)

theorem slotReadBody_bare (bare : sl.standIn = none) :
    slotReadBody [n] s =
      accept s.drawn (sl.octets n (s.dueInFlight n.toNat) (Config.absentCoveredRun s.freeIndex)) := by
  have octet : octetAt [n] 0 = n := rfl
  simp only [slotReadBody, octet, live, bare]
  exact if_neg (not_slotCount_le inside)

end

/-- Settles O37: the refusals of the six commands by the checks they share, and the record read. -/
theorem slotsNamed : Obligations.SlotsNamed := by
  refine ⟨fun p n filler s active => ?_, fun p n filler s active => ?_⟩
  · refine ⟨fun m src edge act flags after offset out => ?_, fun flag above => ?_, fun payload long length => ?_,
      fun period out => ?_, fun above => ?_, fun inside free => ?_, fun sl inside live foreign => ?_⟩
    · exact exec_active .slotConfigure active (by simp [octets2]) rfl rfl
        (slotConfigureBody_outOfRange (slotSettingsOf_outOfRange out))
    · exact exec_active .slotStop active (by simp) rfl rfl (slotStopBody_outOfRange above)
    · exact exec_active .slotRefresh (ps := refreshParameters n payload) active (by rw [length_refreshParameters]; omega)
        (accepts_refreshParameters _ _ (by omega)) rfl (slotRefreshBody_outOfRange long)
    · exact exec_active .slotSetPeriod active (by simp [octets2]) rfl rfl (slotSetPeriodBody_outOfRange out)
    · exact slotCommands_refused filler active fun _ _ => namedSlot_above above
    · exact slotCommands_refused filler active fun _ _ => namedSlot_free inside free
    · exact slotCommands_refused filler active fun _ _ => namedSlot_foreign inside live foreign
  · refine ⟨fun above => ?_, fun inside free => ?_, fun sl inFlight inside live flies => ?_⟩
    · exact exec_active .slotRead active (by simp) rfl rfl (if_pos above)
    · exact exec_active .slotRead active (by simp) rfl rfl (slotReadBody_free (s := s.found p _) inside free)
    · obtain rfl : inFlight = s.dueInFlight n.toNat := Bool.eq_iff_iff.2 (flies.trans (s.dueInFlight_iff _).symm)
      refine ⟨fun si covered => ?_, fun bare => ⟨Config.absentCoveredRun s.freeIndex, ?_⟩⟩
      · refine exec_active .slotRead active (by simp) rfl rfl
          ((slotReadBody_covered (s := s.found p _) inside live covered).trans ?_)
        simp only [Slot.octets, payloadOctets_eq, Option.getD_some]
        rfl
      · refine (exec_active .slotRead active (by simp) rfl rfl
          (slotReadBody_bare (s := s.found p _) inside live bare)).trans (congrArg Host.Outcome.next ?_)
        simp only [Slot.octets, payloadOctets_eq, Option.getD_some]
        rfl

end Sys2Proof.Machine

/-! PROOF. What the slot commands write (06, R97 to R100, R106, R107). -/

namespace Sys2Proof.Machine

/-! ## The settings, the payload and the period (R97, R106, R107) -/

theorem SlotSettings.fit_iff {c : SlotSettings} {sl : Slot} :
    c.fit sl = true ↔ c.offset < sl.period ∧ (∀ q, sl.pendingPeriod = some q → c.offset < q) ∧
      (c.source = .command ∨ c.edge ≠ none) := by
  simp only [SlotSettings.fit, Bool.and_eq_true, Bool.or_eq_true, decide_eq_true_eq, beq_iff_eq, Option.isSome_iff_ne_none,
    and_assoc]
  cases sl.pendingPeriod <;> simp

theorem Slot.refreshed_of_idle {sl : Slot} (idle : sl.state = .stopped ∨ sl.state = .armed) (payload : List Byte) :
    sl.refreshed payload = { sl with active := payload, pendingPayload := none } := by
  obtain stopped | armed := idle
  · rw [refreshed, stopped]
  · rw [refreshed, armed]

theorem Slot.refreshed_of_busy {sl : Slot} (notStopped : sl.state ≠ .stopped) (notArmed : sl.state ≠ .armed)
    (payload : List Byte) : sl.refreshed payload = { sl with pendingPayload := some payload } := by
  rw [refreshed]
  split
  · contradiction
  · contradiction
  all_goals rfl

theorem Slot.withPeriod_of_idle {sl : Slot} (idle : sl.state = .stopped ∨ sl.state = .armed) (period : Nat) :
    sl.withPeriod period = { sl with period := period, pendingPeriod := none } := by
  obtain stopped | armed := idle
  · rw [withPeriod, stopped]
  · rw [withPeriod, armed]

theorem Slot.withPeriod_of_busy {sl : Slot} (notStopped : sl.state ≠ .stopped) (notArmed : sl.state ≠ .armed)
    (period : Nat) : sl.withPeriod period = { sl with pendingPeriod := some period } := by
  rw [withPeriod]
  split
  · contradiction
  · contradiction
  all_goals rfl

/-- Settles O38: each write by the state it finds the slot in. -/
theorem slotSettingsWritten : Obligations.SlotSettingsWritten := by
  intro p n sl filler s active inside live own
  refine ⟨fun mode source edge act offset fresh answer after low high => ?_, fun payload short => ?_,
    fun period positive bounded => ?_⟩
  · intro rest fits
    let c : SlotSettings :=
      ⟨mode, source, if source = .command then none else edge, act, offset.toNat, fresh, answer, after⟩
    have answers {t : State} {r : Response} (reply : configureReply n.toNat (s.found p rest) c sl = (t, r)) :
        exec (.slotConfigure p rest) s = .next (t.setHolder p r) := by
      refine exec_active .slotConfigure active (by simp [octets2]) rfl rfl ?_
      refine (slotConfigureBody_settings (slotSettingsOf_parameters n mode source edge act offset fresh answer low
        high)).trans ?_
      exact (namedSlot_found inside live own).trans reply
    have fit : c.fit sl = true ↔ fits := by
      rw [SlotSettings.fit_iff]
      refine and_congr_right fun _ => and_congr_right fun _ => or_congr_right' fun trigger => ?_
      simp only [c, if_neg trigger]
    refine ⟨fun other => answers (if_pos other), fun stopped bad => answers ?_, fun stopped good => answers ?_⟩
    · exact (if_neg (not_not.2 stopped)).trans (if_neg (fit.not.2 bad))
    · exact (if_neg (not_not.2 stopped)).trans (if_pos (fit.2 good))
  · have answers {t : State} {r : Response} (reply : accept ((s.found p (clockedIn (refreshParameters n payload)
        filler)).setSlot n.toNat (some (sl.refreshed payload))) [] = (t, r)) :
        exec (.slotRefresh p (clockedIn (refreshParameters n payload) filler)) s = .next (t.setHolder p r) :=
      exec_active .slotRefresh (ps := refreshParameters n payload) active (by rw [length_refreshParameters]; omega)
        (accepts_refreshParameters _ _ (by omega)) rfl
        ((slotRefreshBody_inRange short).trans ((namedSlot_found inside live own).trans reply))
    exact ⟨fun idle => answers (by rw [Slot.refreshed_of_idle idle]; rfl),
      fun notStopped notArmed => answers (by rw [Slot.refreshed_of_busy notStopped notArmed]; rfl)⟩
  · intro rest
    have answers {t : State} {r : Response} (reply : (if period.toNat ≤ sl.offset then refuse (s.found p rest) .outOfRange
        else accept ((s.found p rest).setSlot n.toNat (some (sl.withPeriod period.toNat))) []) = (t, r)) :
        exec (.slotSetPeriod p rest) s = .next (t.setHolder p r) :=
      exec_active .slotSetPeriod active (by simp [octets2]) rfl rfl
        ((slotSetPeriodBody_inRange positive bounded).trans ((namedSlot_found inside live own).trans reply))
    refine ⟨fun low => answers (if_pos low), fun above idle => answers ((if_neg (Nat.not_le.2 above)).trans ?_),
      fun above notStopped notArmed => answers ((if_neg (Nat.not_le.2 above)).trans ?_)⟩
    · rw [Slot.withPeriod_of_idle idle]
      rfl
    · rw [Slot.withPeriod_of_busy notStopped notArmed]
      rfl

/-! ## SLOT_START and SLOT_STOP (R98 to R100) -/

/-- SLOT_START on a slot of its port, by the state (R98, R99). -/
def startReply (n : Nat) (s : State) (sl : Slot) : Reply :=
  match sl.state with
  | .stopped => accept (s.setSlot n (some (sl.started s.quiet.latch))) []
  | .finishing => accept (s.setSlot n (some { sl with state := .running })) []
  | .armed | .running | .halted _ => refuse s .wrongState

theorem slotStartBody_named (p : Port) (n : Byte) (s : State) :
    slotStartBody p [n] s = namedSlot p n.toNat s (startReply n.toNat s) := rfl

theorem stopNow_of_live {n : Nat} {s : State} {sl : Slot} (live : s.slot n = some sl) :
    stopNow n s =
      (cut (.dueEntry n) s).setSlot n (some { sl with due := none, state := .stopped, nextExpiry := none }) := by
  have inside : n < (cut (.dueEntry n) s).slots.length := State.slot_lt ((cut_slot _ _ _).trans live)
  rw [stopNow, withdrawDue_of_live live, State.modSlot_of_some (State.setSlot_slot_same inside _), State.setSlot_setSlot]

/-- A stop at once: without the flag, or before the slot has a timer. -/
theorem stopReply_atOnce {n : Nat} {s : State} {flag : Bool} {sl : Slot} (other : sl.state ≠ .stopped)
    (atOnce : flag = false ∨ sl.state = .armed ∨ sl.state = .halted .armed) :
    stopReply n s flag sl = accept (stopNow n s) [] := by
  obtain rfl | armed | held := atOnce
  · unfold stopReply
    split
    case h_6 => rfl
    all_goals contradiction
  · simp only [stopReply, armed]
  · simp only [stopReply, held]

/-- Settles O39: the state a start leads to, and the stops that act at once and those that wait. -/
theorem slotStartedAndStopped : Obligations.SlotStartedAndStopped := by
  intro p n sl filler s active inside live own rest put running
  have starts {t : State} {r : Response} (reply : startReply n.toNat (s.found p rest) sl = (t, r)) :
      exec (.slotStart p rest) s = .next (t.setHolder p r) :=
    exec_active .slotStart active (by simp) rfl rfl ((namedSlot_found inside live own).trans reply)
  have fromStopped (stopped : sl.state = .stopped) {x : Slot} (started : sl.started s.quiet.latch = x) :
      exec (.slotStart p rest) s = .next ((put x).setHolder p ⟨.ok, []⟩) :=
    starts (by rw [startReply, stopped, ← started]; rfl)
  refine ⟨fun stopped clear source => ?_, fun pin stopped clear source => ?_, fun stopped latch source => ?_,
    fun pin stopped latch source => ?_, fun finishing => ?_, fun notStopped notFinishing => ?_, fun flag => ?_⟩
  · exact fromStopped stopped (by simp only [Slot.started, clear, source]; rfl)
  · exact fromStopped stopped (by simp only [Slot.started, clear, source])
  · exact fromStopped stopped (by simp only [Slot.started, latch, source])
  · exact fromStopped stopped (by simp only [Slot.started, latch, source])
  · exact starts (by rw [startReply, finishing]; rfl)
  · refine starts ?_
    rw [startReply]
    split
    · contradiction
    · contradiction
    all_goals rfl
  · intro rest stopped
    have stops {t : State} {r : Response} (reply : stopReply n.toNat (s.found p rest) flag sl = (t, r)) :
        exec (.slotStop p rest) s = .next (t.setHolder p r) :=
      exec_active .slotStop active (by simp) rfl rfl
        ((slotStopBody_flag flag).trans ((namedSlot_found inside live own).trans reply))
    refine ⟨fun already => stops ?_, fun other atOnce => stops ?_, fun atExpiry runs => stops ?_,
      fun atExpiry held => stops ?_, fun atExpiry finishing => stops ?_⟩
    · simp only [stopReply, already]
      rfl
    · rw [stopReply_atOnce other atOnce, stopNow_of_live (s := s.found p rest) live]
      rfl
    · simp only [stopReply, atExpiry, runs]
      rfl
    · simp only [stopReply, atExpiry, held]
      rfl
    · obtain finishing | held := finishing
      · simp only [stopReply, atExpiry, finishing]
        rfl
      · simp only [stopReply, atExpiry, held]
        rfl

end Sys2Proof.Machine

/-! PROOF. The expiry of a slot, and an edge on a trigger pin (06, R101 to R105, R112; 07, R125, R126). -/

namespace Sys2Proof.Machine

/-! ## A publication that ends an expiry (R103, R105) -/

/-- Slot `n` publishes, as `x` with the due entry made, and ends its expiry. -/
def State.publishedBy (n : Nat) (payload : List Byte) (x : Slot) (s : State) : State :=
  let entry : DueEntry := ⟨payload, s.stamp, 0, s.nextCandidacy⟩
  if x.due = none then
    { s with
      slots := s.slots.set n (some (Slot.finishExpiry { x with due := some entry })), nextCandidacy := s.nextCandidacy + 1 }
  else
    State.raise
      { cut (.dueEntry n) s with
        slots := s.slots.set n
          (some (Slot.finishExpiry { x with due := some entry, overruns := min 255 (x.overruns + 1) }))
        nextCandidacy := s.nextCandidacy + 1 }
      x.owner .slotOverrun

/-- An operation that leaves a live slot `x` ends its expiry. -/
theorem State.modSlot_setSlot {n : Nat} {s : State} (inside : n < s.slots.length) (x : Slot) (f : Slot → Slot) :
    (s.setSlot n (some x)).modSlot n f = s.setSlot n (some (f x)) := by
  rw [State.modSlot_of_some (State.setSlot_slot_same inside _), State.setSlot_setSlot]

theorem cut_setSlot (src : Source) (s : State) (n : Nat) (x : Option Slot) :
    cut src (s.setSlot n x) = (cut src s).setSlot n x := by
  cases flies : s.line.inFlight with
  | none => simp only [cut, State.setSlot_line, flies]
  | some r =>
    by_cases same : r.source = src
    · simp only [cut, State.setSlot_line, flies, if_pos same]
      rfl
    · simp only [cut, State.setSlot_line, flies, if_neg same]

theorem publish_setSlot {n : Nat} {s : State} (inside : n < s.slots.length) (x : Slot) (payload : List Byte) :
    (publish n payload (s.setSlot n (some x))).modSlot n Slot.finishExpiry = s.publishedBy n payload x := by
  have live : (s.setSlot n (some x)).slot n = some x := State.setSlot_slot_same inside _
  let entry : DueEntry := ⟨payload, s.stamp, 0, s.nextCandidacy⟩
  cases due : x.due with
  | none =>
    have made : publish n payload (s.setSlot n (some x)) =
        s.bumpCandidacy.setSlot n (some { x with due := some entry }) := by
      simp only [publish, live, due, State.setSlot_setSlot]
      rfl
    rw [made, State.modSlot_setSlot (s := s.bumpCandidacy) inside, State.publishedBy, if_pos due]
    rfl
  | some d =>
    let u := ((cut (.dueEntry n) s).bumpCandidacy).raise x.owner .slotOverrun
    have made : publish n payload (s.setSlot n (some x)) =
        u.setSlot n (some { x with due := some entry, overruns := saturate x.overruns }) := by
      simp only [publish, live, due, cut_setSlot, State.setSlot_setSlot]
      rfl
    have slots : u.slots = s.slots := cut_slots _ s
    rw [made, State.modSlot_setSlot (slots ▸ inside), State.publishedBy, if_neg (by simp [due]), State.setSlot, slots]
    simp only [u, State.bumpCandidacy, cut_nextCandidacy]
    rfl

/-! ## The course of an expiry (R101 to R103; 07, R125, R126) -/

theorem Slot.finishExpiry_cases (sl : Slot) :
    (sl.state = .running → sl.mode = .repeating → sl.finishExpiry = { sl with nextExpiry := some sl.period }) ∧
    (sl.state = .running → sl.mode = .oneShot → sl.source = .command →
      sl.finishExpiry = { sl with state := .stopped, nextExpiry := none }) ∧
    (∀ pin, sl.state = .running → sl.mode = .oneShot → sl.source = .trigger pin →
      sl.finishExpiry = { sl with state := .armed, nextExpiry := none }) ∧
    (sl.state = .finishing → sl.finishExpiry = { sl with state := .stopped, nextExpiry := none }) := by
  refine ⟨fun runs mode => ?_, fun runs mode source => ?_, fun pin runs mode source => ?_, fun finishing => ?_⟩
  · simp only [finishExpiry, runs, mode]
  · simp only [finishExpiry, runs, mode, source]
  · simp only [finishExpiry, runs, mode, source]
  · simp only [finishExpiry, finishing]

theorem staleExpiry_of_bare {sl : Slot} (bare : sl.standIn = none) (n : Nat) (s : State) :
    staleExpiry n sl s = (s.setSlot n (some { sl with staleRun := saturate sl.staleRun })).raise sl.owner .slotStale := by
  simp only [staleExpiry]
  split
  · rfl
  · next covered => simp [bare] at covered

section
variable {n : Nat} {sl : Slot} {s : State} (live : s.slot n = some sl)
include live

theorem expire_of_live : expire n s = (judgeExpiry n sl.takePeriod s).modSlot n Slot.finishExpiry := by
  rw [expire, live]

theorem expire_fresh {payload : List Byte} (pending : sl.pendingPayload = some payload) :
    expire n s = s.publishedBy n payload { sl.takePeriod.endRuns with active := payload, pendingPayload := none } := by
  rw [expire_of_live live, judgeExpiry, show sl.takePeriod.pendingPayload = some payload from pending]
  exact publish_setSlot (State.slot_lt live) _ _

variable (stale : sl.pendingPayload = none)
include stale

theorem expire_repeating (free : sl.freshRequired = false) :
    expire n s = s.publishedBy n sl.active sl.takePeriod.endRuns := by
  rw [expire_of_live live, ← publish_setSlot (State.slot_lt live), judgeExpiry,
    show sl.takePeriod.pendingPayload = none from stale]
  exact congrArg (fun t => State.modSlot t n Slot.finishExpiry) (if_neg (by simp [Slot.takePeriod, free]))

variable (fresh : sl.freshRequired = true)
include fresh

/-- A stale expiry raises the stale run before the stand-in is asked (R102). -/
theorem expire_stale :
    expire n s = (staleExpiry n sl.takePeriod s).modSlot n Slot.finishExpiry := by
  rw [expire_of_live live, judgeExpiry, show sl.takePeriod.pendingPayload = none from stale]
  exact congrArg (fun t => State.modSlot t n Slot.finishExpiry) (if_pos fresh)

theorem expire_uncovered (bare : sl.standIn = none) :
    expire n s =
      (s.setSlot n (some (Slot.finishExpiry { sl.takePeriod with staleRun := saturate sl.staleRun }))).raise sl.owner
        .slotStale := by
  rw [expire_stale live stale fresh, staleExpiry_of_bare (sl := sl.takePeriod) bare]
  exact State.modSlot_setSlot (s := s.raise sl.owner .slotStale) (State.slot_lt live) _ _

variable {si : StandIn} (covered : sl.standIn = some si)
include covered

theorem expire_covered (below : si.coveredRun + 1 < sl.takeoverAfter) :
    expire n s =
      ((s.raise sl.owner .slotStale).raise si.port .standinUsed).publishedBy n si.payload { sl.takePeriod with
        staleRun := saturate sl.staleRun, standIn := some { si with coveredRun := si.coveredRun + 1 } } := by
  rw [expire_stale live stale fresh, staleExpiry, show sl.takePeriod.standIn = some si from covered,
    ← publish_setSlot (s := (s.raise sl.owner .slotStale).raise si.port .standinUsed) (State.slot_lt live)]
  refine congrArg (fun t => State.modSlot t n Slot.finishExpiry) ((if_neg (Nat.not_le.2 below)).trans ?_)
  exact congrArg (publish n si.payload) (State.setSlot_setSlot ((s.raise sl.owner .slotStale).raise si.port .standinUsed) ..)

theorem expire_takenOver (reached : sl.takeoverAfter ≤ si.coveredRun + 1) :
    expire n s =
      ((((s.raise sl.owner .slotStale).raise si.port .standinUsed).raise sl.owner .slotLost).raise si.port
        .slotGained).publishedBy n si.payload
          (Slot.takenOver { sl.takePeriod with staleRun := saturate sl.staleRun } si) := by
  let u := (((s.raise sl.owner .slotStale).raise si.port .standinUsed).raise sl.owner .slotLost).raise si.port .slotGained
  rw [expire_stale live stale fresh, staleExpiry, show sl.takePeriod.standIn = some si from covered,
    ← publish_setSlot (s := u) (State.slot_lt live)]
  refine congrArg (fun t => State.modSlot t n Slot.finishExpiry) ((if_pos reached).trans ?_)
  exact congrArg (publish n si.payload) (State.setSlot_setSlot u ..)

end

theorem Slot.expired_iff (sl : Slot) :
    sl.expired = true ↔ (sl.state = .running ∨ sl.state = .finishing) ∧ sl.nextExpiry = some 0 := by
  simp only [Slot.expired, Bool.and_eq_true, Bool.or_eq_true, beq_iff_eq, ended_iff]

/-- Settles O40: the course of an expiry by the payload, the coverage and the takeover. -/
theorem expiryPerformed : Obligations.ExpiryPerformed := by
  refine ⟨Slot.finishExpiry_cases, fun n sl s live here state zero => ?_, fun n s early => ?_⟩
  · have expires {t : State} (h : expire n s = t) : exec (.slotExpiry n) s = .next t := by
      refine congrArg Host.Outcome.next ((takeExpiry_of_due live ?_).trans h)
      simp only [State.isDue, here]
      exact sl.expired_iff.2 ⟨state, zero⟩
    exact ⟨fun payload pending => expires (expire_fresh here pending),
      fun stale free => expires (expire_repeating here stale free),
      fun stale fresh bare => expires (expire_uncovered here stale fresh bare),
      fun si stale fresh covered below => expires (expire_covered here stale fresh covered below),
      fun si stale fresh covered reached => expires (expire_takenOver here stale fresh covered reached)⟩
  · refine congrArg Host.Outcome.next (whenLive_of_idle (if_neg fun due => ?_))
    simp only [State.isDue] at due
    split at due
    · next sl here =>
      obtain ⟨state, zero⟩ := sl.expired_iff.1 due
      obtain ⟨notRunning, notFinishing⟩ | other := early sl here
      · exact state.elim notRunning notFinishing
      · exact other zero
    · cases due

/-! ## An edge on a trigger pin (R112, R175) -/

theorem Slot.selects_iff (sl : Slot) (pin : TrigPin) (sense : Sense) :
    sl.selects pin sense = true ↔ sl.source = .trigger pin ∧
      (sl.edge = some .both ∨ (sl.edge = some .rising ∧ sense = .rising) ∨
        (sl.edge = some .falling ∧ sense = .falling)) := by
  simp only [Slot.selects, Bool.and_eq_true, beq_iff_eq]
  refine and_congr_right fun _ => ?_
  cases sl.edge with
  | none => simp
  | some e => cases e <;> cases sense <;> simp [SlotEdge.admits]

/-- Settles O41: every slot takes the edge by itself. -/
theorem triggerEdgeActs : Obligations.TriggerEdgeActs := by
  intro pin sense s live
  refine ⟨triggerEdge pin sense s, congrArg Host.Outcome.next (whenLive_of_none _ live), rfl, fun n free => ?_,
    fun n sl here => ?_⟩
  · rw [triggerEdge_slot, free]
    rfl
  · intro selected acts
    have taken : sl.selects pin sense = true ∧ (sl.state = .armed ∨ (sl.state = .running ∧ sl.trigAction = .reanchor)) ↔
        acts := and_congr_left' (sl.selects_iff pin sense)
    rw [triggerEdge_slot, here, Option.map_some, Slot.takeEdge]
    simp only [Bool.and_eq_true, Bool.or_eq_true, beq_iff_eq, taken]
    exact ⟨fun not => congrArg some (if_neg not), fun does => congrArg some (if_pos does)⟩

end Sys2Proof.Machine

/-! PROOF. The line commands (01, R5, R10, R11, R13, R20 to R24). -/

namespace Sys2Proof.Machine

theorem State.found_of_lease {s : State} {p : Port} {rest : List Byte} (lease : s.line.lease = some p) :
    (s.found p rest).holds p = true := by
  simp [State.holds, lease]

theorem State.found_of_no_lease {s : State} {p : Port} {rest : List Byte} (other : s.line.lease ≠ some p) :
    (!(s.found p rest).holds p) = true := by
  simp [State.holds, other]

/-! ## LINE_SET and READ_LINE (R10, R13, R20, R21, R24) -/

/-- The parameters of LINE_SET: rate mode, rate, silence time, line mode. -/
def lineParameters (rateMode rate : Byte) (silence : Word16) (mode : Byte) : List Byte :=
  [rateMode, rate] ++ octets2 silence ++ [mode]

section
variable (rateMode rate : Byte) (silence : Word16) (mode : Byte)

@[simp] theorem octetAt_lineParameters_rateMode : octetAt (lineParameters rateMode rate silence mode) 0 = rateMode := rfl

@[simp] theorem octetAt_lineParameters_rate : octetAt (lineParameters rateMode rate silence mode) 1 = rate := rfl

@[simp] theorem wordAt_lineParameters : wordAt (lineParameters rateMode rate silence mode) 2 = silence :=
  high_append_low silence

@[simp] theorem octetAt_lineParameters_mode : octetAt (lineParameters rateMode rate silence mode) 4 = mode := rfl

end

theorem lineSettingsOf_outOfRange {c0 c1 c4 : Byte} {silence : Word16}
    (out : ¬(50 ≤ silence.toNat ∧ silence.toNat ≤ 5000) ∨ 1 < c0.toNat ∨ 3 < c1.toNat ∨ 2 < c4.toNat) :
    lineSettingsOf (lineParameters c0 c1 silence c4) = none := by
  simp only [lineSettingsOf, octetAt_lineParameters_rateMode, octetAt_lineParameters_rate, wordAt_lineParameters,
    octetAt_lineParameters_mode]
  split
  · next readRateMode readRate readMode =>
    refine if_neg fun inRange => ?_
    rcases out with outside | above | above | above
    · exact outside inRange
    · simp [RateMode.ofCode_above above] at readRateMode
    · simp [Rate.ofCode_above above] at readRate
    · simp [LineMode.ofCode_above above] at readMode
  · rfl

theorem lineSettingsOf_inRange {rateMode : RateMode} {rate : Rate} {silence : Word16} {mode : LineMode}
    (inRange : 50 ≤ silence.toNat ∧ silence.toNat ≤ 5000) :
    lineSettingsOf (lineParameters rateMode.code rate.code silence mode.code) = some ⟨rateMode, rate, silence.toNat, mode⟩ := by
  simp only [lineSettingsOf, octetAt_lineParameters_rateMode, octetAt_lineParameters_rate, wordAt_lineParameters,
    octetAt_lineParameters_mode, RateMode.ofCode_code, Rate.ofCode_code, LineMode.ofCode_code]
  exact if_pos inRange

/-- A changed silence time restarts a running timer (R10). -/
theorem LineUnit.setSilence_eq (u : LineUnit) (n : Nat) :
    u.setSilence n = { u with
      silenceTime := n
      silenceTimer := if u.silenceTime ≠ n ∧ u.silenceTimer ≠ none then some n else u.silenceTimer } := by
  simp only [setSilence, Option.isSome_iff_ne_none]
  split <;> rfl

theorem LineUnit.setMode_idle {u : LineUnit} (idle : u.inFlight = none) (m : LineMode) : u.setMode m = { u with mode := m } :=
  if_neg (by simp [idle])

theorem LineUnit.setMode_flies {u : LineUnit} (flies : u.inFlight ≠ none) (m : LineMode) :
    u.setMode m = { u with pendingMode := if m = .normal then none else some m } :=
  if_pos (Option.isSome_iff_ne_none.2 flies)

theorem lineSetBody_taken {p : Port} {s : State} {ps : List Byte} {c : LineSettings} (holds : s.holds p = true)
    (read : lineSettingsOf ps = some c) : lineSetBody p ps s = accept (s.modLine (fun u => u.set c)) [] := by
  simp [lineSetBody, holds, read]

theorem lineSetBody_outOfRange {p : Port} {s : State} {ps : List Byte} (holds : s.holds p = true)
    (read : lineSettingsOf ps = none) : lineSetBody p ps s = refuse s .outOfRange := by
  simp [lineSetBody, holds, read]

/-- Settles O43: the lease, the ranges, and the written line by what is in flight. -/
theorem lineSettingsWritten : Obligations.LineSettingsWritten := by
  intro p rateMode rate silence mode filler s active rest read inRange written
  have taken (u : LineUnit) (lease : s.line.lease = some p) (inside : inRange)
      (set_ : s.line.set ⟨rateMode, rate, silence.toNat, mode⟩ = u) :
      exec (.lineSet p rest) s = .next (({ s.found p rest with line := u }).setHolder p ⟨.ok, []⟩) := by
    refine exec_active .lineSet active (by simp [octets2]) rfl rfl ?_
    rw [← set_]
    exact lineSetBody_taken (State.found_of_lease lease) (lineSettingsOf_inRange inside)
  have settings : ({ s.line with rateMode := rateMode, configuredRate := rate }).setSilence silence.toNat = written :=
    LineUnit.setSilence_eq _ _
  refine ⟨fun c0 c1 c4 => ⟨fun other => ?_, fun lease out => ?_⟩, fun lease inside idle => taken _ lease inside ?_,
    fun lease inside flies mode_ => taken _ lease inside ?_, fun lease inside flies mode_ => taken _ lease inside ?_, ?_⟩
  · exact exec_active .lineSet active (by simp [octets2]) rfl rfl (if_pos (State.found_of_no_lease other))
  · exact exec_active .lineSet active (by simp [octets2]) rfl rfl
      (lineSetBody_outOfRange (State.found_of_lease lease) (lineSettingsOf_outOfRange out))
  · rw [LineUnit.set, settings]
    exact LineUnit.setMode_idle (u := written) idle mode
  · rw [LineUnit.set, settings, LineUnit.setMode_flies (u := written) flies, if_neg mode_]
  · rw [LineUnit.set, settings, LineUnit.setMode_flies (u := written) flies, if_pos mode_]
  · exact exec_active .readLine active (by simp) rfl rfl rfl

/-! ## LINE_ON, LINE_OFF and LINE_RESYNC (R5, R11, R22, R23) -/

/-- The rate mode alone decides the state in which a line starts. -/
theorem LineUnit.started_state_congr {u v : LineUnit} (same : u.rateMode = v.rateMode) :
    u.started.state = v.started.state := by
  simp only [started, same]
  split <;> rfl

theorem LineUnit.started_state_ne_off (u : LineUnit) : u.started.state ≠ .off := by
  unfold started
  split <;> nofun

theorem startLine_changed {s : State} (changed : s.line.started.state ≠ s.line.state) :
    startLine s = ({ s with line := s.line.started } : State).raiseAll .lineChange := if_neg changed

theorem startLine_unchanged {s : State} (same : s.line.started.state = s.line.state) :
    startLine s = { s with line := s.line.started } := if_pos same

theorem LineUnit.restartSilence_endAttempt (u : LineUnit) :
    u.endAttempt.restartSilence.state = u.state ∧ u.endAttempt.restartSilence.rateMode = u.rateMode := by
  unfold restartSilence
  split <;> exact ⟨rfl, rfl⟩

theorem abortAttempt_line_state (s : State) : (abortAttempt s).line.state = s.line.state := by
  rw [abortAttempt_line]
  split
  · exact (s.line.restartSilence_endAttempt).1
  · rfl

theorem abortAttempt_line_rateMode (s : State) : (abortAttempt s).line.rateMode = s.line.rateMode := by
  rw [abortAttempt_line]
  split
  · exact (s.line.restartSilence_endAttempt).2
  · rfl

section
variable {p : Port} {ps : List Byte} {s : State}

theorem lineOnBody_held (holds : s.holds p = true) :
    lineOnBody p ps s = if s.line.state ≠ .off then refuse s .wrongState else accept (startLine s) [] := by
  simp [lineOnBody, holds]

theorem lineOffBody_held (holds : s.holds p = true) : lineOffBody p ps s = accept (turnLineOff s) [] := by
  simp [lineOffBody, holds]

theorem lineResyncBody_held (holds : s.holds p = true) :
    lineResyncBody p ps s =
      if s.line.state = .off then refuse s .wrongState else accept (startLine (abortAttempt s)) [] := by
  simp [lineResyncBody, holds]

end

/-- Settles O44: the three commands by the lease and by the line's state. -/
theorem lineSwitched : Obligations.LineSwitched := by
  intro p filler s active rest started aborted again off
  have turnsOn {t : State} {r : Response} (reply : lineOnBody p [] (s.found p rest) = (t, r)) :
      exec (.lineOn p rest) s = .next (t.setHolder p r) := exec_active .lineOn active (by simp) rfl rfl reply
  have turnsOff {t : State} {r : Response} (reply : lineOffBody p [] (s.found p rest) = (t, r)) :
      exec (.lineOff p rest) s = .next (t.setHolder p r) := exec_active .lineOff active (by simp) rfl rfl reply
  have resyncs {t : State} {r : Response} (reply : lineResyncBody p [] (s.found p rest) = (t, r)) :
      exec (.lineResync p rest) s = .next (t.setHolder p r) := exec_active .lineResync active (by simp) rfl rfl reply
  refine ⟨fun other => ?_, fun lease state => ?_, fun lease state => ?_⟩
  · have refused := State.found_of_no_lease (rest := rest) other
    exact ⟨turnsOn (if_pos refused), turnsOff (if_pos refused), resyncs (if_pos refused)⟩
  · have holds := State.found_of_lease (rest := rest) lease
    refine ⟨turnsOn ?_, turnsOff ?_, resyncs ?_⟩
    · rw [lineOnBody_held holds, if_neg (not_not.2 (show (s.found p rest).line.state = .off from state)),
        startLine_changed (by rw [State.found_line, state]; exact s.line.started_state_ne_off)]
      rfl
    · rw [lineOffBody_held holds, turnLineOff_of_off (s := s.found p rest) state]
      rfl
    · rw [lineResyncBody_held holds, if_pos (show (s.found p rest).line.state = .off from state)]
      rfl
  · have holds := State.found_of_lease (rest := rest) lease
    have resynced : lineResyncBody p [] (s.found p rest) = accept (startLine aborted) [] :=
      (lineResyncBody_held holds).trans (if_neg state)
    have before : aborted.line.state = s.line.state := abortAttempt_line_state _
    have behind : aborted.line.started.state = s.line.started.state :=
      LineUnit.started_state_congr (abortAttempt_line_rateMode _)
    refine ⟨turnsOn ?_, turnsOff ?_, fun changed => resyncs (resynced.trans ?_), fun same => resyncs (resynced.trans ?_)⟩
    · exact (lineOnBody_held holds).trans (if_pos state)
    · rw [lineOffBody_held holds, turnLineOff, if_neg (show ¬(s.found p rest).line.state = .off from state)]
      rfl
    · rw [startLine_changed (by rw [before, behind]; exact changed)]
      rfl
    · rw [startLine_unchanged (by rw [before, behind]; exact same)]
      rfl

end Sys2Proof.Machine

/-! PROOF. What a reception end does (01, R2, R6 to R10, R18). -/

namespace Sys2Proof.Machine

theorem State.receives_iff {s : State} {began : Nat} :
    s.receives began = true ↔
      s.line.state ≠ .off ∧ s.line.inFlight = none ∧ began = s.line.receiverPeriod := by
  simp only [State.receives, Bool.and_eq_true, bne_iff_ne, beq_iff_eq, Option.isNone_iff_eq_none, and_assoc,
    eq_comm (a := began)]

theorem receive_error {r : Reception} (error : ∀ t, r ≠ .clean t) (s : State) : receive r s = receptionError s := by
  cases r with
  | clean t => exact absurd rfl (error t)
  | codingError => rfl
  | formatError => rfl
  | checkError => rfl

/-! ## The line unit at a clean telegram (R6, R8, R10) -/

section
variable {s : State}

theorem cleanReception_degraded (state : s.line.state = .degraded) : cleanReception s = s := by
  rw [cleanReception, state]

theorem cleanReception_first (state : s.line.state = .search) (zero : s.line.cleanCount = 0) :
    cleanReception s = { s with line := { s.line with cleanCount := 1, dwellTimer := some 40 } } := by
  rw [cleanReception, state]
  refine (if_neg (by omega)).trans ?_
  simp only [State.modLine, zero]
  rfl

theorem cleanReception_second (state : s.line.state = .search) (counted : 1 ≤ s.line.cleanCount) :
    cleanReception s = (s.modLine LineUnit.synced).raiseAll .lineChange := by
  rw [cleanReception, state]
  exact if_pos counted

theorem LineUnit.restartSilence_synced {u : LineUnit} (state : u.state = .synced) :
    u.restartSilence = { u with silenceTimer := some u.silenceTime, silentFlag := false } := if_pos state

theorem cleanReception_synced (state : s.line.state = .synced) :
    cleanReception s = { s with line := { s.line with
      silenceTimer := some s.line.silenceTime, silentFlag := false, errorCount := s.line.errorCount - 1 } } := by
  rw [cleanReception, state]
  simp only [State.modLine, LineUnit.restartSilence_synced state]
  exact congrArg (fun u => { s with line := u }) (if_pos state)

/-! ## The line unit at an error (R7 to R10) -/

theorem receptionError_degraded (state : s.line.state = .degraded) : receptionError s = s := by
  rw [receptionError, state]

theorem receptionError_search (state : s.line.state = .search) :
    receptionError s = { s with line := { s.line with cleanCount := 0 } } := by
  rw [receptionError, state]
  rfl

theorem receptionError_synced (state : s.line.state = .synced) :
    receptionError s = checkDegraded { s with line := { s.line with
      silenceTimer := some s.line.silenceTime, silentFlag := false, errorCount := min 32 (s.line.errorCount + 1) } } := by
  rw [receptionError, state]
  simp only [State.modLine, LineUnit.restartSilence_synced state]
  exact congrArg (fun u => checkDegraded { s with line := u }) (if_pos state)

theorem receptionError_below (state : s.line.state = .synced) (below : s.line.errorCount + 1 < 32) :
    receptionError s = { s with line := { s.line with
      silenceTimer := some s.line.silenceTime, silentFlag := false, errorCount := s.line.errorCount + 1 } } := by
  rw [receptionError_synced state, Nat.min_eq_right (Nat.le_of_lt below)]
  exact if_neg fun ⟨_, limit⟩ => Nat.ne_of_lt below limit

theorem receptionError_above (state : s.line.state = .synced) (above : 32 ≤ s.line.errorCount + 1) :
    receptionError s = enterDegraded { s with line := { s.line with
      silenceTimer := some s.line.silenceTime, silentFlag := false, errorCount := 32 } } := by
  rw [receptionError_synced state, Nat.min_eq_left above]
  exact if_pos ⟨state, rfl⟩

end

/-- Settles O45: each result by the state of the line it finds. -/
theorem receptionEnds : Obligations.ReceptionEnds := by
  intro act s live restarted offered
  refine ⟨fun none_ => ?_, fun on idle began => ⟨fun t clean => ?_, fun error => ?_⟩, rfl⟩
  · refine congrArg Host.Outcome.next (whenLive_of_idle (if_neg fun receives => ?_))
    obtain ⟨on, idle, began⟩ := State.receives_iff.1 receives
    rcases none_ with off | flies | other
    · exact on off
    · exact flies idle
    · exact other began
  · have takes {u : State} (h : cleanReception s = u) : exec (.receptionEnd act) s = .next (offered t u) := by
      refine congrArg Host.Outcome.next ((whenLive_of_none _ live).trans ?_)
      refine (if_pos (State.receives_iff.2 ⟨on, idle, began⟩)).trans ?_
      rw [clean, ← h]
      rfl
    exact ⟨fun state => takes (cleanReception_degraded state), fun state zero => takes (cleanReception_first state zero),
      fun state counted => takes (cleanReception_second state counted), fun state => takes (cleanReception_synced state)⟩
  · have takes {u : State} (h : receptionError s = u) : exec (.receptionEnd act) s = .next u := by
      refine congrArg Host.Outcome.next ((whenLive_of_none _ live).trans ?_)
      exact (if_pos (State.receives_iff.2 ⟨on, idle, began⟩)).trans ((receive_error error s).trans h)
    exact ⟨fun state => takes (receptionError_degraded state), fun state => takes (receptionError_search state),
      fun state below => takes (receptionError_below state below), fun state above => takes (receptionError_above state above)⟩

end Sys2Proof.Machine

/-! PROOF. What an offer does to the ports, the detector and the slots (01, R18, R19; 03, R41; 06, R113; 08, R140, R143 to
R145). -/

namespace Sys2Proof.Machine

/-! ## The wake causes of one offer at one port (R140, R144) -/

/-- A port unit to which the route table presents its cause, if any. -/
def PortUnit.takeRoute (route : Option Nat) (stamp : Stamp) (u : PortUnit) : PortUnit :=
  match route with
  | some n => u.takeCause (.route n) stamp
  | none => u

/-- A port unit to which the detector presents GENERAL, if it does. -/
def PortUnit.takeGeneral (general : Bool) (stamp : Stamp) (u : PortUnit) : PortUnit :=
  if general then u.takeCause .general stamp else u

section
variable {u : PortUnit} {route : Option Nat} {general : Bool} {stamp : Stamp}

theorem PortUnit.takeCause_taken {cause : WakeCause} (dozing : u.state = .dozing) (admits : u.wakeSet.admits cause = true) :
    u.takeCause cause stamp = u.enterWaking cause stamp := if_pos ⟨dozing, admits⟩

theorem PortUnit.takeCause_ignored {cause : WakeCause} (ignored : ¬(u.state = .dozing ∧ u.wakeSet.admits cause = true)) :
    u.takeCause cause stamp = u := if_neg ignored

theorem PortUnit.takeRoute_awake (awake : u.state ≠ .dozing) : u.takeRoute route stamp = u := by
  unfold takeRoute
  split
  · exact takeCause_ignored fun ⟨dozing, _⟩ => awake dozing
  · rfl

theorem PortUnit.takeGeneral_awake (awake : u.state ≠ .dozing) : u.takeGeneral general stamp = u := by
  unfold takeGeneral
  split
  · exact takeCause_ignored fun ⟨dozing, _⟩ => awake dozing
  · rfl

theorem PortUnit.takeRoute_ignored (ignored : ¬((∃ n, route = some n) ∧ u.wakeSet.selective = true)) :
    u.takeRoute route stamp = u := by
  cases route with
  | none => rfl
  | some n => exact takeCause_ignored fun ⟨_, admits⟩ => ignored ⟨⟨n, rfl⟩, admits⟩

theorem PortUnit.takeGeneral_ignored (ignored : ¬(general = true ∧ u.wakeSet.general = true)) :
    u.takeGeneral general stamp = u := by
  unfold takeGeneral
  split
  · next presented => exact takeCause_ignored fun ⟨_, admits⟩ => ignored ⟨presented, admits⟩
  · rfl

theorem PortUnit.takeRoute_taken {n : Nat} (dozing : u.state = .dozing) (selective : u.wakeSet.selective = true) :
    u.takeRoute (some n) stamp = u.enterWaking (.route n) stamp := takeCause_taken dozing selective

theorem PortUnit.takeGeneral_taken (dozing : u.state = .dozing) (presented : general = true)
    (admits : u.wakeSet.general = true) : u.takeGeneral general stamp = u.enterWaking .general stamp :=
  (if_pos presented).trans (takeCause_taken dozing admits)

end

/-- The two causes of one offer in either order (log 6). -/
theorem presentCauses_unit_same (p : Port) (route : Option Nat) (general : Bool) (stamp : Stamp) (s : State) :
    ((presentCauses p route general stamp s).unit p = ((s.unit p).takeRoute route stamp).takeGeneral general stamp) ∨
    ((presentCauses p route general stamp s).unit p = ((s.unit p).takeGeneral general stamp).takeRoute route stamp) := by
  cases route with
  | none =>
    cases general with
    | false => exact .inl rfl
    | true => exact .inl (State.present_unit_same ..)
  | some n =>
    cases general with
    | false => exact .inl (State.present_unit_same ..)
    | true =>
      simp only [presentCauses]
      split
      · right
        rw [State.present_unit_same, State.present_unit_same]
        rfl
      · left
        rw [State.present_unit_same, State.present_unit_same]
        rfl

theorem presentCauses_unit_ne {p q : Port} (other : q ≠ p) (route : Option Nat) (general : Bool) (stamp : Stamp) (s : State) :
    (presentCauses p route general stamp s).unit q = s.unit q := by
  simp only [presentCauses]
  split
  · rfl
  · exact State.present_unit_ne _ _ _ _ other
  · exact State.present_unit_ne _ _ _ _ other
  · split <;> simp [State.present_unit_ne _ _ _ _ other]

theorem wakePorts_unit (o : Offer) (ds : Quad Delivery) (memory : Option Remembered) (s : State) (p : Port) :
    ∃ t : State, t.unit p = s.unit p ∧ (wakePorts o ds memory s).unit p =
      (presentCauses p (ds.get p).wake (o.presentsGeneral memory p) o.stamp t).unit p := by
  have other {q r : Port} (ne : q ≠ r) (route : Option Nat) (general : Bool) (t : State) :
      (presentCauses r route general o.stamp t).unit q = t.unit q := presentCauses_unit_ne ne ..
  simp only [wakePorts, Port.list, List.foldl]
  cases p with
  | a =>
    rw [other (q := .a) (r := .d) nofun, other (q := .a) (r := .c) nofun, other (q := .a) (r := .b) nofun]
    exact ⟨s, rfl, rfl⟩
  | b =>
    rw [other (q := .b) (r := .d) nofun, other (q := .b) (r := .c) nofun]
    refine ⟨_, ?_, rfl⟩
    rw [other (q := .b) (r := .a) nofun]
  | c =>
    rw [other (q := .c) (r := .d) nofun]
    refine ⟨_, ?_, rfl⟩
    rw [other (q := .c) (r := .b) nofun, other (q := .c) (r := .a) nofun]
  | d =>
    refine ⟨_, ?_, rfl⟩
    rw [other (q := .d) (r := .c) nofun, other (q := .d) (r := .b) nofun, other (q := .d) (r := .a) nofun]

/-! ## The detector (R143, R144) -/

theorem Telegram.isGeneralWake_iff (t : Telegram) : t.isGeneralWake = true ↔ t.kind = .wake ∧ t.label = 0 := by
  simp [isGeneralWake]

theorem Offer.presentsGeneral_iff (o : Offer) (memory : Option Remembered) (p : Port) :
    o.presentsGeneral memory p = true ↔ (o.telegram.kind = .wake ∧ o.telegram.label = 0) ∧
      ∃ m, memory = some m ∧ m.excluded ≠ some p ∧ o.excluded ≠ some p := by
  cases memory with
  | none => simp [presentsGeneral]
  | some m => simp [presentsGeneral, Telegram.isGeneralWake_iff, and_assoc]

theorem Offer.remember_first {o : Offer} (general : o.telegram.kind = .wake ∧ o.telegram.label = 0) :
    o.remember none = some ⟨o.stamp, o.excluded, 100⟩ := if_pos (o.telegram.isGeneralWake_iff.2 general)

theorem Offer.remember_second {o : Offer} {memory : Option Remembered}
    (general : o.telegram.kind = .wake ∧ o.telegram.label = 0) (remembered : memory ≠ none) : o.remember memory = none := by
  obtain ⟨m, rfl⟩ := Option.ne_none_iff_exists'.1 remembered
  exact if_pos (o.telegram.isGeneralWake_iff.2 general)

theorem Offer.remember_other {o : Offer} (memory : Option Remembered)
    (other : ¬(o.telegram.kind = .wake ∧ o.telegram.label = 0)) : o.remember memory = memory :=
  if_neg (o.telegram.isGeneralWake_iff.not.2 other)

/-! ## The query answerer (R113) -/

theorem offer_eq (o : Offer) (answer : Bool) (s : State) :
    offer o answer s =
      if answer && o.telegram.kind == .query then answerQuery o.telegram.label (offered o s) else offered o s := rfl

theorem offer_unanswered {o : Offer} {answer : Bool} {s : State} (none_ : answer = false ∨ o.telegram.kind ≠ .query) :
    offer o answer s = offered o s := by
  rw [offer_eq]
  refine if_neg ?_
  simp only [Bool.and_eq_true, beq_iff_eq, not_and]
  obtain rfl | other := none_
  · nofun
  · exact fun _ => other

theorem offer_query {o : Offer} {s : State} (query : o.telegram.kind = .query) :
    offer o true s = answerQuery o.telegram.label (offered o s) := by
  rw [offer_eq]
  exact if_pos (by simp [query])

theorem slotOfLabel_eq_some {s : State} {l : Label} {n : Nat} {sl : Slot} (live : s.slot n = some sl)
    (label : sl.lineLabel = l) (unique : ∀ m x, s.slot m = some x → x.lineLabel = l → m = n) : s.slotOfLabel l = some n := by
  cases found : s.slotOfLabel l with
  | none => exact absurd label (slotOfLabel_eq_none found live)
  | some m =>
    obtain ⟨inside, carries, -⟩ := List.findIdx?_eq_some_iff_getElem.1 found
    split at carries
    · next x here =>
      have liveAt : s.slot m = some x := State.slot_eq_some.2 (List.getElem?_eq_some_iff.2 ⟨inside, here⟩)
      rw [unique m x liveAt (beq_iff_eq.1 carries)]
    · cases carries

theorem Slot.answers_iff (sl : Slot) :
    sl.answers = true ↔ sl.answerQueries = true ∧ (sl.state = .running ∨ sl.state = .finishing) ∧
      (sl.freshRequired = false ∨ sl.staleRun = 0) := by
  simp only [Slot.answers, Bool.and_eq_true, Bool.or_eq_true, beq_iff_eq, Bool.not_eq_true', and_assoc]

theorem answerQuery_ports (l : Label) (s : State) : (answerQuery l s).ports = s.ports := by
  obtain same | ⟨n, sl, live, -, free, answered⟩ := answerQuery_cases l s
  · rw [same]
  · rw [answered]
    simp only [publish, live, free]
    rfl

section
variable {s : State} {l : Label} {n : Nat} {sl : Slot} (here : s.slotOfLabel l = some n) (live : s.slot n = some sl)
include here live

theorem answerQuery_answered (answers : sl.answers = true) (free : sl.due = none) :
    answerQuery l s =
      (s.setSlot n (some { sl with due := some ⟨sl.active, s.stamp, 0, s.nextCandidacy⟩ })).bumpCandidacy := by
  simp only [answerQuery, here, live, publish, free, answers]
  rfl

theorem answerQuery_silent (silent : ¬(sl.answers = true ∧ sl.due = none)) : answerQuery l s = s := by
  simp only [answerQuery, here, live]
  exact if_neg (by simpa [Option.isNone_iff_eq_none] using silent)

end

theorem offered_nextCandidacy (o : Offer) (s : State) : (offered o s).nextCandidacy = s.nextCandidacy :=
  (wakePorts_nextCandidacy ..).trans (admitGroup_nextCandidacy ..)

theorem offered_stamp (o : Offer) (s : State) : (offered o s).stamp = s.stamp :=
  (wakePorts_stamp ..).trans (admitGroup_stamp ..)

theorem offered_slot (o : Offer) (s : State) (n : Nat) : (offered o s).slot n = s.slot n := by
  rw [State.slot, offered_slots, State.slot]

theorem offer_unit (o : Offer) (answer : Bool) (s : State) (p : Port) : (offer o answer s).unit p = (offered o s).unit p := by
  rw [offer_eq]
  split
  · rw [State.unit, answerQuery_ports, State.unit]
  · rfl

theorem offer_detector (o : Offer) (answer : Bool) (s : State) : (offer o answer s).detector = o.remember s.detector := by
  rw [offer_eq]
  split
  · exact answerQuery_detector _ _
  · rfl

/-- The unit of a port before the wake causes: only its flags may be gained (R64). -/
def State.flagged (s : State) (p : Port) (t : State) : PortUnit := { s.unit p with flags := (t.unit p).flags }

theorem FlagsGained.unit {s t : State} (h : FlagsGained s t) (p : Port) : t.unit p = s.flagged p t := by
  obtain ⟨fl, unit, -⟩ := h p
  rw [State.flagged, unit]

/-- The unit of a port after an offer: the two causes taken in either order. -/
theorem offer_unit_cases (o : Offer) (answer : Bool) (s : State) (p : Port) :
    let admitted := admitGroup (o.decide s .a).copy (o.decide s .b).copy (o.decide s .c).copy (o.decide s .d).copy s
    let u := s.flagged p admitted
    (offer o answer s).unit p =
        (u.takeRoute (o.decide s p).wake o.stamp).takeGeneral (o.presentsGeneral s.detector p) o.stamp ∨
      (offer o answer s).unit p =
        (u.takeGeneral (o.presentsGeneral s.detector p) o.stamp).takeRoute (o.decide s p).wake o.stamp := by
  intro admitted u
  have flagged : admitted.unit p = u := FlagsGained.unit (admitGroup_flagsGained _ _ _ _ s) p
  have decision : ((o.decisions s).get p).wake = (o.decide s p).wake := by cases p <;> rfl
  obtain ⟨t, before, after⟩ := wakePorts_unit o (o.decisions s) s.detector admitted p
  have unit : (offered o s).unit p =
      (presentCauses p (o.decide s p).wake (o.presentsGeneral s.detector p) o.stamp t).unit p := by
    rw [← decision, ← after]
    rfl
  rw [offer_unit, unit, ← flagged, ← before]
  exact presentCauses_unit_same ..

/-- Settles O46: the parts of the state that an offer reaches, one by one, and those that it leaves. -/
theorem offerTaken : Obligations.OfferTaken := by
  intro o answer s t copied admitted general presented waking staying
  have detector : t.detector = o.remember s.detector := offer_detector o answer s
  refine ⟨offer_rx o answer s, fun wake empty => ?_, fun wake remembered => ?_, fun other => ?_, fun p => ?_,
    fun unanswered => ?_, fun n sl answered query live label unique => ?_, fun answered query fresh => ?_,
    offer_windows .., offer_routes .., offer_tx .., offer_line .., offer_quiet .., offer_loader .., offer_stamp ..,
    offer_resetting .., offer_pending ..⟩
  · rw [detector, empty, Offer.remember_first wake]
  · rw [detector, Offer.remember_second wake remembered]
  · rw [detector, Offer.remember_other _ other]
  · intro byRoute byGeneral
    have orders := offer_unit_cases o answer s p
    let u := s.flagged p admitted
    change t.unit p = (u.takeRoute _ _).takeGeneral _ _ ∨ t.unit p = (u.takeGeneral _ _).takeRoute _ _ at orders
    have general_ : (o.presentsGeneral s.detector p = true ∧ (s.unit p).wakeSet.general = true) ↔ byGeneral :=
      and_congr_left' (o.presentsGeneral_iff s.detector p)
    have woken (cause : WakeCause) : (u.enterWaking cause o.stamp).state ≠ .dozing := nofun
    refine ⟨fun awake => ?_, fun noRoute noGeneral => ?_, fun n dozing route wake noGeneral => ?_,
      fun dozing general noRoute => ?_, fun n dozing general route wake => ?_⟩
    · have awake : u.state ≠ .dozing := awake
      simp only [PortUnit.takeRoute_awake awake, PortUnit.takeGeneral_awake awake, or_self] at orders
      exact orders
    · simp only [PortUnit.takeRoute_ignored (u := u) noRoute, PortUnit.takeGeneral_ignored (u := u) (general_.not.2 noGeneral),
        or_self] at orders
      exact orders
    · simp only [wake, PortUnit.takeRoute_taken (u := u) dozing route.2, PortUnit.takeGeneral_awake (woken _),
        PortUnit.takeGeneral_ignored (u := u) (general_.not.2 noGeneral), or_self] at orders
      exact orders
    · obtain ⟨presented, admits⟩ := general_.2 general
      simp only [PortUnit.takeRoute_ignored (u := u) noRoute, PortUnit.takeGeneral_taken (u := u) dozing presented admits,
        PortUnit.takeRoute_awake (woken _), or_self] at orders
      exact orders
    · obtain ⟨presented, admits⟩ := general_.2 general
      simp only [wake, PortUnit.takeRoute_taken (u := u) dozing route.2, PortUnit.takeGeneral_awake (woken _),
        PortUnit.takeGeneral_taken (u := u) dozing presented admits, PortUnit.takeRoute_awake (woken _)] at orders
      exact orders
  · rw [show t = offered o s from offer_unanswered unanswered]
    exact ⟨offered_slots o s, offered_nextCandidacy o s⟩
  · intro answers
    have here : (offered o s).slotOfLabel o.telegram.label = some n := by
      rw [State.slotOfLabel, offered_slots]
      exact slotOfLabel_eq_some live label unique
    have liveAt : (offered o s).slot n = some sl := (offered_slot o s n).trans live
    have asked : t = answerQuery o.telegram.label (offered o s) := by
      rw [← offer_query query, ← answered]
    have speaks : answers ↔ sl.answers = true ∧ sl.due = none := by
      rw [Slot.answers_iff, and_assoc, and_assoc]
    refine ⟨fun does => ?_, fun silent => ?_⟩
    · obtain ⟨does, free⟩ := speaks.1 does
      rw [asked, answerQuery_answered here liveAt does free]
      simp only [State.bumpCandidacy, State.setSlot, offered_slots, offered_nextCandidacy, offered_stamp, and_self]
    · rw [asked, answerQuery_silent here liveAt (speaks.not.1 silent)]
      exact ⟨offered_slots o s, offered_nextCandidacy o s⟩
  · have none_ : (offered o s).slotOfLabel o.telegram.label = none := by
      rw [State.slotOfLabel, offered_slots]
      exact slotOfLabel_eq_none_of fresh
    have silent : t = offered o s := by
      rw [show t = answerQuery o.telegram.label (offered o s) by rw [← offer_query query, ← answered], answerQuery, none_]
    rw [silent]
    exact ⟨offered_slots o s, offered_nextCandidacy o s⟩

end Sys2Proof.Machine

/-! PROOF. Which expiries are due, and that taking one makes no other due (06, R93, R94; log 5). -/

namespace Sys2Proof.Machine

/-! ## Due expiries -/

/-- The timer of an expiry runs in its owner's state and its interval has ended. -/
def State.Due (s : State) : Expiry → Prop
  | .dwell => s.line.state = .search ∧ s.line.dwellTimer = some 0
  | .silence => s.line.state = .synced ∧ s.line.silenceTimer = some 0
  | .window => ∃ m, s.detector = some m ∧ m.left = 0
  | .load => s.loader.state = .loading ∧ s.loader.timer = some 0
  | .presence p => (s.unit p).state = .active ∧ (s.unit p).presenceTimer = some 0
  | .wake p => (s.unit p).state = .dozing ∧ (s.unit p).wakeTimer = some 0
  | .acknowledge p => (s.unit p).state = .waking ∧ (s.unit p).ackTimer = some 0
  | .slot n => ∃ sl, s.slot n = some sl ∧ (sl.state = .running ∨ sl.state = .finishing) ∧ sl.nextExpiry = some 0

theorem State.isDue_iff (s : State) (e : Expiry) : s.isDue e = true ↔ s.Due e := by
  cases e with
  | window => cases h : s.detector <;> simp [isDue, Due, h]
  | slot n => cases h : s.slot n <;> simp [isDue, Due, h, Slot.expired_iff]
  | dwell | silence | load | presence p | wake p | acknowledge p => simp [isDue, Due, ended_iff]

theorem State.not_isDue {s : State} {e : Expiry} (h : ¬s.Due e) : s.isDue e = false :=
  Bool.eq_false_iff.2 ((s.isDue_iff e).not.2 h)

/-! ## What comes no sooner -/

/-- What is due of a line unit was due before. -/
def LineUnit.NoSooner (u v : LineUnit) : Prop :=
  (v.state = .search → v.dwellTimer = some 0 → u.state = .search ∧ u.dwellTimer = some 0) ∧
    (v.state = .synced → v.silenceTimer = some 0 → u.state = .synced ∧ u.silenceTimer = some 0)

theorem LineCalm.noSooner {u v : LineUnit} (h : LineCalm u v) : u.NoSooner v := by
  rw [h.line]
  exact ⟨fun state timer => ⟨state, timer⟩, fun state timer => ⟨state, timer⟩⟩

/-- What is due of a port unit was due before. -/
def PortUnit.NoSooner (u v : PortUnit) : Prop :=
  (v.state = .active → v.presenceTimer = some 0 → u.state = .active ∧ u.presenceTimer = some 0) ∧
    (v.state = .dozing → v.wakeTimer = some 0 → u.state = .dozing ∧ u.wakeTimer = some 0) ∧
    (v.state = .waking → v.ackTimer = some 0 → u.state = .waking ∧ u.ackTimer = some 0)

theorem PortUnit.NoSooner.refl (u : PortUnit) : u.NoSooner u :=
  ⟨fun state timer => ⟨state, timer⟩, fun state timer => ⟨state, timer⟩, fun state timer => ⟨state, timer⟩⟩

theorem PortUnit.noSooner_tornDown (u : PortUnit) (cause : DetachCause) : u.NoSooner (u.tornDown cause) :=
  ⟨nofun, nofun, nofun⟩

theorem FlagsGained.noSooner {s t : State} (h : FlagsGained s t) (p : Port) : (s.unit p).NoSooner (t.unit p) := by
  rw [FlagsGained.unit h p]
  exact PortUnit.NoSooner.refl (s.unit p)

/-- The wake timer's expiry stops the timer, and where it wakes the port the acknowledge timer starts full. -/
theorem PortUnit.noSooner_wakeTimer (u : PortUnit) (stamp : Stamp) :
    u.NoSooner (({ u with wakeTimer := none } : PortUnit).takeCause .timer stamp) := by
  obtain same | ⟨-, taken⟩ := ({ u with wakeTimer := none } : PortUnit).takeCause_cases .timer stamp
  · rw [same]
    exact ⟨fun state timer => ⟨state, timer⟩, nofun, fun state timer => ⟨state, timer⟩⟩
  · rw [taken]
    exact ⟨nofun, nofun, fun _ timer => absurd timer (by simp [enterWaking, Config.wakeAckTime])⟩

/-- The period of a slot, and a pending one, are at least one tick. -/
def Slot.Spaced (sl : Slot) : Prop := 1 ≤ sl.period ∧ ∀ q, sl.pendingPeriod = some q → 1 ≤ q

/-- What is due of a spaced slot was due before. -/
def Slot.NoSooner (x y : Slot) : Prop := x.Spaced → y.Spaced ∧ (y.expired = true → x.expired = true)

theorem Slot.NoSooner.of_keeps {x y : Slot} (period : y.period = x.period) (pending : y.pendingPeriod = x.pendingPeriod)
    (expired : y.expired = x.expired) : x.NoSooner y := fun spaced =>
  ⟨by rwa [Spaced, period, pending], fun due => expired ▸ due⟩

theorem Slot.takePeriod_spaced {sl : Slot} (spaced : sl.Spaced) : sl.takePeriod.Spaced := by
  obtain ⟨period, pending⟩ := spaced
  refine ⟨?_, nofun⟩
  unfold Slot.takePeriod
  cases stands : sl.pendingPeriod with
  | none => exact period
  | some q => exact pending q stands

/-- At the end of an expiry the slot waits at least one tick, or runs no more (R105). -/
theorem Slot.finishExpiry_spaced {sl : Slot} (spaced : sl.Spaced) :
    sl.finishExpiry.Spaced ∧ sl.finishExpiry.expired = false := by
  obtain ⟨period, pending⟩ := spaced
  have later : ¬some sl.period = some 0 := fun zero => by simp at zero; omega
  unfold Slot.finishExpiry
  split
  · exact ⟨⟨period, pending⟩, Bool.eq_false_iff.2 fun due => later ((Slot.expired_iff _).1 due).2⟩
  · exact ⟨⟨period, pending⟩, rfl⟩
  · exact ⟨⟨period, pending⟩, rfl⟩
  · exact ⟨⟨period, pending⟩, rfl⟩
  · next finishing repeating oneShot triggered =>
    refine ⟨⟨period, pending⟩, Bool.eq_false_iff.2 fun due => ?_⟩
    obtain ⟨running | ends, -⟩ := sl.expired_iff.1 due
    · cases mode : sl.mode with
      | repeating => exact repeating running mode
      | oneShot =>
        cases source : sl.source with
        | command => exact oneShot running mode source
        | trigger pin => exact triggered pin running mode source
    · exact finishing ends

theorem noSooner_expiryRule : ExpiryRule Slot.NoSooner where
  refl _ := .of_keeps rfl rfl rfl
  trans h k spaced := by
    obtain ⟨mid, first⟩ := h spaced
    obtain ⟨last, second⟩ := k mid
    exact ⟨last, fun due => first (second due)⟩
  withdraws _ := .of_keeps rfl rfl rfl
  sends _ _ := .of_keeps rfl rfl rfl
  counts _ _ _ := .inl (.of_keeps rfl rfl rfl)
  stops _ spaced := ⟨spaced, nofun⟩
  uncovers _ := .of_keeps rfl rfl rfl
  takesOver _ _ _ := .of_keeps rfl rfl rfl
  publishes _ _ _ _ := .of_keeps rfl rfl rfl
  overruns _ := .of_keeps rfl rfl rfl
  takesPeriod _ spaced := ⟨Slot.takePeriod_spaced spaced, id⟩
  refreshes _ _ := .of_keeps rfl rfl rfl
  endsRuns _ := .of_keeps rfl rfl rfl
  stales _ := .of_keeps rfl rfl rfl
  covers _ _ _ _ := .of_keeps rfl rfl rfl
  finishes _ spaced := by
    obtain ⟨after, none_⟩ := Slot.finishExpiry_spaced spaced
    exact ⟨after, fun due => absurd due (by simp [none_])⟩

/-! ## The hub as a whole -/

/-- Every live slot is spaced. -/
def State.Spaced (s : State) : Prop := ∀ n sl, s.slot n = some sl → sl.Spaced

theorem SlotsSafe.spaced {s : State} (h : SlotsSafe s) : s.Spaced := fun _ _ live =>
  have holds := h.slot live
  ⟨holds.positive, fun q stands => Nat.one_le_of_lt (holds.pending q stands).1⟩

/-- What is due in `t` is due in `s`. -/
structure NoSooner (s t : State) : Prop where
  line : s.line.NoSooner t.line
  unit : ∀ p, (s.unit p).NoSooner (t.unit p)
  detector : t.detector = s.detector ∨ t.detector = none
  loader : t.loader = s.loader ∨ t.loader.state = .ready
  slots : SlotsBy Slot.NoSooner s t

theorem NoSooner.due {s t : State} (h : NoSooner s t) (spaced : s.Spaced) {e : Expiry} (due : t.Due e) : s.Due e := by
  cases e with
  | dwell => exact h.line.1 due.1 due.2
  | silence => exact h.line.2 due.1 due.2
  | window =>
    obtain ⟨m, stands, zero⟩ := due
    obtain same | none_ := h.detector
    · exact ⟨m, same ▸ stands, zero⟩
    · rw [none_] at stands
      cases stands
  | load =>
    obtain ⟨loading, zero⟩ := due
    obtain same | ready := h.loader
    · exact ⟨same ▸ loading, same ▸ zero⟩
    · rw [ready] at loading
      cases loading
  | presence p => exact (h.unit p).1 due.1 due.2
  | wake p => exact (h.unit p).2.1 due.1 due.2
  | acknowledge p => exact (h.unit p).2.2 due.1 due.2
  | slot n =>
    obtain ⟨sl, live, ends⟩ := due
    obtain ⟨y, before, keeps⟩ := h.slots.slot live
    exact ⟨y, before, y.expired_iff.1 ((keeps (spaced n y before)).2 (sl.expired_iff.2 ends))⟩

/-- Only slots and the line's record in flight are touched, and flags raised. -/
theorem SlotEffect.noSooner {s t : State} (h : SlotEffect s t) (detector : t.detector = s.detector)
    (loader : t.loader = s.loader) (slots : SlotsBy Slot.NoSooner s t) : NoSooner s t :=
  ⟨h.lineCalm.noSooner, h.units.noSooner, .inl detector, .inl loader, slots⟩

theorem noSooner_of_slots {s t : State} (slots : t.slots = s.slots) : SlotsBy Slot.NoSooner s t :=
  noSooner_expiryRule.by_of_slots slots

theorem teardown_noSooner (p : Port) (cause : DetachCause) (s : State) : NoSooner s (teardown p cause s) := by
  refine ⟨(teardown_lineCalm p cause s).noSooner, fun q => ?_, .inl (teardown_detector ..), .inl (teardown_loader ..),
    noSooner_expiryRule.teardown p cause s⟩
  by_cases same : q = p
  · subst same
    rw [teardown_unit_same_eq]
    exact (s.unit q).noSooner_tornDown cause
  · rw [teardown_unit_ne same]
    exact (released_flagsGained p s).noSooner q

theorem wakeTimerExpiry_unit_same (p : Port) (s : State) :
    (wakeTimerExpiry p s).unit p = ({ s.unit p with wakeTimer := none } : PortUnit).takeCause .timer s.stamp := by
  rw [wakeTimerExpiry, State.present_unit_same, State.modUnit_unit_same]

theorem wakeTimerExpiry_unit_ne {p q : Port} (other : q ≠ p) (s : State) : (wakeTimerExpiry p s).unit q = s.unit q := by
  rw [wakeTimerExpiry, State.present_unit_ne _ _ _ _ other, State.modUnit_unit_ne _ _ _ other]

theorem wakeTimerExpiry_noSooner (p : Port) (s : State) : NoSooner s (wakeTimerExpiry p s) := by
  refine ⟨(LineCalm.refl _).noSooner, fun q => ?_, .inl rfl, .inl rfl, noSooner_of_slots rfl⟩
  by_cases same : q = p
  · subst same
    rw [wakeTimerExpiry_unit_same]
    exact (s.unit q).noSooner_wakeTimer s.stamp
  · rw [wakeTimerExpiry_unit_ne same]
    exact .refl _

/-- Taking an expiry makes nothing due. -/
theorem expiryEffect_noSooner (e : Expiry) (s : State) : NoSooner s (expiryEffect e s) := by
  cases e with
  | dwell =>
    have line : s.line.NoSooner (dwellExpiry s).line :=
      ⟨fun _ full => absurd full (by simp [dwellExpiry, Config.dwellTime]), fun state timer => ⟨state, timer⟩⟩
    exact ⟨line, fun p => .refl _, .inl rfl, .inl rfl, noSooner_of_slots rfl⟩
  | silence =>
    have line : s.line.NoSooner (silenceExpiry s).line := ⟨fun state timer => ⟨state, timer⟩, nofun⟩
    exact ⟨line, (State.raiseActive_flagsGained (s.modLine _) _).noSooner, .inl rfl, .inl rfl, noSooner_of_slots rfl⟩
  | window => exact ⟨(LineCalm.refl _).noSooner, fun p => .refl _, .inr rfl, .inl rfl, noSooner_of_slots rfl⟩
  | load =>
    have line : s.line.NoSooner (installBuiltIn true s).line :=
      ⟨fun state timer => ⟨state, timer⟩, fun state timer => ⟨state, timer⟩⟩
    refine ⟨line, fun p => ?_, .inl rfl, .inr rfl, noSooner_of_slots rfl⟩
    rw [expiryEffect, installBuiltIn_unit]
    exact PortUnit.NoSooner.refl (s.unit p)
  | presence p => exact teardown_noSooner p .presence s
  | wake p => exact wakeTimerExpiry_noSooner p s
  | acknowledge p => exact teardown_noSooner p .wakeUnanswered s
  | slot n => exact (expire_effect n s).noSooner (expire_detector n s) (expire_loader n s) (noSooner_expiryRule.expire n s)

/-- A slot that has expired is not due again at once (R105). -/
theorem expire_not_due {s : State} (spaced : s.Spaced) (n : Nat) : ¬(expire n s).Due (.slot n) := by
  rintro ⟨y, after, ends⟩
  cases live : s.slot n with
  | none => simp [expire, live] at after
  | some sl =>
    have judged := noSooner_expiryRule.judgeExpiry live (noSooner_expiryRule.takesPeriod sl)
    rw [expire_of_live live] at after
    cases found : (judgeExpiry n sl.takePeriod s).slot n with
    | none => simp [State.modSlot_of_none found, found] at after
    | some x =>
      obtain ⟨z, before, keeps⟩ := judged.slot found
      obtain ⟨-, none_⟩ := Slot.finishExpiry_spaced (keeps (spaced n z before)).1
      rw [State.modSlot_of_some found, State.setSlot_slot_same (State.slot_lt found), Option.some.injEq] at after
      rw [← after] at ends
      exact absurd ((Slot.expired_iff _).2 ends) (by simp [none_])

/-- An expiry taken is due no more. -/
theorem expiryEffect_not_due {s : State} (spaced : s.Spaced) (e : Expiry) : ¬(expiryEffect e s).Due e := by
  cases e with
  | dwell => exact fun ⟨_, full⟩ => by simp [expiryEffect, dwellExpiry, Config.dwellTime] at full
  | silence => exact fun ⟨_, stopped⟩ => by cases stopped
  | window => exact fun ⟨_, empty, _⟩ => by cases empty
  | load => exact fun ⟨ready, _⟩ => by cases ready
  | presence p =>
    rintro ⟨state, -⟩
    rw [expiryEffect, teardown_unit_same_eq] at state
    cases state
  | acknowledge p =>
    rintro ⟨state, -⟩
    rw [expiryEffect, teardown_unit_same_eq] at state
    cases state
  | wake p =>
    rintro ⟨-, stopped⟩
    rw [expiryEffect, wakeTimerExpiry_unit_same] at stopped
    obtain same | ⟨-, taken⟩ := ({ s.unit p with wakeTimer := none } : PortUnit).takeCause_cases .timer s.stamp
    · rw [same] at stopped
      cases stopped
    · rw [taken] at stopped
      cases stopped
  | slot n => exact expire_not_due spaced n

/-- After an expiry is taken, no more is due than before, and it is not. -/
theorem takeExpiry_due {s : State} (spaced : s.Spaced) {e f : Expiry} (due : (takeExpiry e s).Due f) :
    s.Due f ∧ f ≠ e := by
  unfold takeExpiry at due
  split at due
  · refine ⟨(expiryEffect_noSooner e s).due spaced due, ?_⟩
    rintro rfl
    exact expiryEffect_not_due spaced _ due
  · next early =>
    refine ⟨due, ?_⟩
    rintro rfl
    exact early ((s.isDue_iff _).2 due)

end Sys2Proof.Machine

/-! PROOF. The expiries do not look at the free values that have been drawn (log 5, log 16). -/

namespace Sys2Proof.Machine

/-- `s` with another number of free values drawn. -/
def State.redraw (k : Nat) (s : State) : State := { s with freeIndex := k }

@[simp] theorem State.redraw_slot (k : Nat) (s : State) (n : Nat) : (s.redraw k).slot n = s.slot n := rfl

@[simp] theorem State.redraw_line (k : Nat) (s : State) : (s.redraw k).line = s.line := rfl

theorem State.redraw_raise (k : Nat) (s : State) (p : Port) (f : EventFlag) :
    (s.redraw k).raise p f = (s.raise p f).redraw k := rfl

theorem State.redraw_setSlot (k : Nat) (s : State) (n : Nat) (x : Option Slot) :
    (s.redraw k).setSlot n x = (s.setSlot n x).redraw k := rfl

theorem State.redraw_modUnit (k : Nat) (s : State) (p : Port) (f : PortUnit → PortUnit) :
    (s.redraw k).modUnit p f = (s.modUnit p f).redraw k := rfl

theorem State.redraw_redraw (j k : Nat) (s : State) : (s.redraw j).redraw k = s.redraw k := rfl

theorem State.redraw_self (s : State) : s.redraw s.freeIndex = s := rfl

theorem State.redraw_isDue (k : Nat) (s : State) (e : Expiry) : (s.redraw k).isDue e = s.isDue e := by cases e <;> rfl

theorem State.redraw_dueExpiries (k : Nat) (s : State) : (s.redraw k).dueExpiries = s.dueExpiries :=
  List.filter_congr fun e _ => s.redraw_isDue k e

/-- An operation that does not look at the free values drawn. -/
def Deaf (f : State → State) : Prop := ∀ k s, f (s.redraw k) = (f s).redraw k

theorem Deaf.redraw {f : State → State} (h : Deaf f) (k : Nat) (s : State) : f (s.redraw k) = (f s).redraw k := h k s

theorem Deaf.comp {f g : State → State} (hf : Deaf f) (hg : Deaf g) : Deaf (fun s => f (g s)) := fun k s =>
  (congrArg f (hg k s)).trans (hf k (g s))

/-! ## The operations of the expiries -/

theorem deaf_cut (src : Source) : Deaf (cut src) := fun k s => by
  cases flies : s.line.inFlight with
  | none => simp only [cut, State.redraw_line, flies]
  | some r =>
    by_cases same : r.source = src
    · simp only [cut, State.redraw_line, flies, if_pos same]
      rfl
    · simp only [cut, State.redraw_line, flies, if_neg same]

theorem deaf_modSlot (n : Nat) (f : Slot → Slot) : Deaf (fun s => s.modSlot n f) := fun k s => by
  cases live : s.slot n with
  | none => simp only [State.modSlot, State.redraw_slot, live]
  | some sl =>
    simp only [State.modSlot, State.redraw_slot, live]
    rfl

theorem deaf_withdrawDue (n : Nat) : Deaf (withdrawDue n) := (deaf_modSlot n _).comp (deaf_cut _)

theorem deaf_publish (n : Nat) (payload : List Byte) : Deaf (publish n payload) := fun k s => by
  cases live : s.slot n with
  | none => simp only [publish, State.redraw_slot, live]
  | some sl =>
    cases due : sl.due with
    | none =>
      simp only [publish, State.redraw_slot, live, due]
      rfl
    | some d =>
      simp only [publish, State.redraw_slot, live, due, deaf_cut (.dueEntry n) k s]
      rfl

theorem deaf_cover (n : Nat) (sl : Slot) (si : StandIn) : Deaf (cover n sl si) := fun k s => by
  by_cases reached : sl.takeoverAfter ≤ si.coveredRun + 1
  · simp only [cover, if_pos reached, State.redraw_raise, State.redraw_setSlot, (deaf_publish n si.payload).redraw]
  · simp only [cover, if_neg reached, State.redraw_raise, State.redraw_setSlot, (deaf_publish n si.payload).redraw]

theorem deaf_staleExpiry (n : Nat) (sl : Slot) : Deaf (staleExpiry n sl) := fun k s => by
  cases covered : sl.standIn with
  | none =>
    rw [staleExpiry_of_bare covered, staleExpiry_of_bare covered, State.redraw_setSlot, State.redraw_raise]
  | some si =>
    simp only [staleExpiry, covered, State.redraw_raise, State.redraw_setSlot, (deaf_cover n _ si).redraw]

theorem deaf_judgeExpiry (n : Nat) (sl : Slot) : Deaf (judgeExpiry n sl) := fun k s => by
  cases pending : sl.pendingPayload with
  | some payload =>
    simp only [judgeExpiry, pending, State.redraw_setSlot, (deaf_publish n payload).redraw]
  | none =>
    by_cases fresh : sl.freshRequired = true
    · simp only [judgeExpiry, pending, if_pos fresh]
      exact deaf_staleExpiry n sl k s
    · simp only [judgeExpiry, pending, if_neg fresh, State.redraw_setSlot, (deaf_publish n sl.active).redraw]

theorem deaf_expire (n : Nat) : Deaf (expire n) := fun k s => by
  cases live : s.slot n with
  | none => simp only [expire, State.redraw_slot, live]
  | some sl =>
    rw [expire_of_live live, expire_of_live (s := s.redraw k) live, deaf_judgeExpiry n _ k s]
    exact deaf_modSlot n _ k _

theorem deaf_removeSlot (n : Nat) : Deaf (removeSlot n) := fun k s => by
  cases live : s.slot n with
  | none => simp only [removeSlot, State.redraw_slot, live]
  | some sl =>
    cases covered : sl.standIn with
    | none =>
      simp only [removeSlot, State.redraw_slot, live, covered, deaf_withdrawDue n k s]
      rfl
    | some si =>
      simp only [removeSlot, State.redraw_slot, live, covered, deaf_withdrawDue n k s]
      rfl

theorem deaf_disposeSlot (p : Port) (n : Nat) : Deaf (disposeSlot p n) := fun k s => by
  cases live : s.slot n with
  | none => simp only [disposeSlot, State.redraw_slot, live]
  | some sl =>
    by_cases own : sl.owner = p
    · cases covered : sl.standIn with
      | none =>
        simp only [disposeSlot, State.redraw_slot, live, if_pos own, covered]
        exact deaf_removeSlot n k s
      | some si =>
        simp only [disposeSlot, State.redraw_slot, live, if_pos own, covered]
        rfl
    · simp only [disposeSlot, State.redraw_slot, live, if_neg own]

theorem deaf_dropStandIn (p : Port) (n : Nat) : Deaf (dropStandIn p n) := fun k s => by
  cases live : s.slot n with
  | none => simp only [dropStandIn, State.redraw_slot, live]
  | some sl =>
    cases covered : sl.standIn with
    | none => simp only [dropStandIn, State.redraw_slot, live, covered]
    | some si =>
      by_cases own : si.port = p
      · simp only [dropStandIn, State.redraw_slot, live, covered, if_pos own]
        rfl
      · simp only [dropStandIn, State.redraw_slot, live, covered, if_neg own]

theorem deaf_foldl {α : Type} {f : α → State → State} (h : ∀ x, Deaf (f x)) (xs : List α) :
    Deaf (fun s => xs.foldl (fun t x => f x t) s) := fun k s => by
  induction xs generalizing s with
  | nil => rfl
  | cons x rest ih => simp only [List.foldl_cons, h x k s, ih]

theorem deaf_forSlots {f : Nat → State → State} (h : ∀ n, Deaf (f n)) : Deaf (forSlots f) := deaf_foldl h _

theorem deaf_releaseLease (p : Port) : Deaf (releaseLease p) := fun k s => by
  unfold releaseLease
  have same : (s.redraw k).holds p = s.holds p := rfl
  rw [same]
  split <;> rfl

theorem deaf_clearTx (p : Port) : Deaf (clearTx p) := fun k s => by
  rw [clearTx, deaf_cut]
  rfl

theorem deaf_teardown (p : Port) (cause : DetachCause) : Deaf (teardown p cause) := fun k s => by
  have cleared : freeRoutes p (clearRx p (clearTx p (releaseLease p (s.redraw k)))) =
      (freeRoutes p (clearRx p (clearTx p (releaseLease p s)))).redraw k := by
    rw [deaf_releaseLease, deaf_clearTx]
    rfl
  rw [teardown_eq, teardown_eq, released, cleared, (deaf_forSlots (deaf_disposeSlot p)).redraw,
    (deaf_forSlots (deaf_dropStandIn p)).redraw, State.redraw_modUnit, released]

/-- Taking an expiry draws nothing and looks at nothing drawn. -/
theorem deaf_takeExpiry (e : Expiry) : Deaf (takeExpiry e) := fun k s => by
  have effect : expiryEffect e (s.redraw k) = (expiryEffect e s).redraw k := by
    cases e with
    | dwell | silence | window | load | wake p => rfl
    | presence p => exact deaf_teardown p .presence k s
    | acknowledge p => exact deaf_teardown p .wakeUnanswered k s
    | slot n => exact deaf_expire n k s
  unfold takeExpiry
  rw [State.redraw_isDue, effect]
  split <;> rfl

end Sys2Proof.Machine

/-! PROOF. The expiries of the timers, the expiries due, and the tick (01, R7, R10; 06, R93; 08, R142, R143). -/

namespace Sys2Proof.Machine

/-! ## The expiries due -/

theorem allExpiries_nodup : allExpiries.Nodup := by decide

theorem mem_allExpiries (e : Expiry) : e ∈ allExpiries ↔ ∀ n, e = .slot n → n < 24 := by
  simp only [allExpiries, List.mem_append, List.mem_map, List.mem_range, List.mem_cons, List.not_mem_nil, or_false]
  cases e with
  | slot n => simp [Config.slotCount]
  | presence p | wake p | acknowledge p => simp [Port.mem_list]
  | dwell | silence | window | load => simp

theorem State.mem_dueExpiries {s : State} {e : Expiry} : e ∈ s.dueExpiries ↔ e ∈ allExpiries ∧ s.Due e := by
  rw [State.dueExpiries, List.mem_filter, s.isDue_iff]

theorem State.dueExpiries_nodup (s : State) : s.dueExpiries.Nodup := allExpiries_nodup.filter _

theorem State.length_dueExpiries_le (s : State) : s.dueExpiries.length ≤ expiryCount := List.length_filter_le ..

/-- After an expiry is taken there are fewer due. -/
theorem length_dueExpiries_takeExpiry {s : State} (spaced : s.Spaced) {e : Expiry} (due : e ∈ s.dueExpiries) :
    (takeExpiry e s).dueExpiries.length < s.dueExpiries.length := by
  have rest : (takeExpiry e s).dueExpiries ⊆ s.dueExpiries.erase e := fun f mem => by
    obtain ⟨listed, dueAfter⟩ := State.mem_dueExpiries.1 mem
    obtain ⟨dueBefore, other⟩ := takeExpiry_due spaced dueAfter
    exact (List.mem_erase_of_ne other).2 (State.mem_dueExpiries.2 ⟨listed, dueBefore⟩)
  have shorter := List.Subperm.length_le (List.Nodup.subperm (takeExpiry e s).dueExpiries_nodup rest)
  rw [List.length_erase_of_mem due] at shorter
  have some_ := List.length_pos_of_mem due
  omega

/-! ## The expiries settled before a tick (log 5) -/

theorem settle_of_none_due {s : State} (none_ : s.dueExpiries = []) (fuel : Nat) : settle fuel s = s := by
  cases fuel with
  | zero => rfl
  | succ fuel => rw [settle, none_]

theorem settle_of_one_due {s : State} {e : Expiry} (one : s.dueExpiries = [e]) (fuel : Nat) :
    settle (fuel + 1) s = settle fuel (takeExpiry e s) := by
  rw [settle, one]

/-- One of the expiries due is taken first. -/
theorem settle_succ {s : State} (some_ : s.dueExpiries ≠ []) (fuel : Nat) :
    ∃ e ∈ s.dueExpiries, ∃ k, settle (fuel + 1) s = settle fuel ((takeExpiry e s).redraw k) := by
  rw [settle]
  split
  · next none_ => exact absurd none_ some_
  · next e one => exact ⟨e, by simp [one], _, congrArg (settle fuel) (State.redraw_self _).symm⟩
  · next e es _ more =>
    refine ⟨(e :: es).getD (Config.expiryChoice s.freeIndex % (e :: es).length) e, ?_, s.freeIndex + 1, ?_⟩
    · rw [more, List.getD_eq_getElem _ _ (Nat.mod_lt _ (by simp))]
      exact List.getElem_mem _
    · exact congrArg (settle fuel) (deaf_takeExpiry _ _ s)

theorem SlotsSafe.takeExpiry {s : State} (safe : SlotsSafe s) (live : s.resetting = none) (e : Expiry) :
    SlotsSafe (takeExpiry e s) := by
  unfold Machine.takeExpiry
  split
  · next due => exact slotsSafe_event safe (expiryEffect_event live due)
  · exact safe

/-- The expiries taken one after the other. -/
def takeInOrder (order : List Expiry) (s : State) : State := order.foldl (fun t e => takeExpiry e t) s

theorem deaf_takeInOrder (order : List Expiry) : Deaf (takeInOrder order) := deaf_foldl deaf_takeExpiry order

/-- Expiries that are not due change nothing. -/
theorem takeInOrder_of_not_due {s : State} {order : List Expiry} (early : ∀ e ∈ order, ¬s.Due e) :
    takeInOrder order s = s := by
  induction order with
  | nil => rfl
  | cons e rest ih =>
    have first : takeExpiry e s = s := if_neg (by simpa [s.isDue_iff] using early e (.head _))
    rw [takeInOrder, List.foldl_cons, first]
    exact ih fun f mem => early f (.tail _ mem)

/-- With fuel for each expiry due, they are settled each at most once, and none is left. -/
theorem settle_takes (fuel : Nat) {s : State} (safe : SlotsSafe s) (live : s.resetting = none)
    (enough : s.dueExpiries.length ≤ fuel) :
    ∃ taken k, taken.Nodup ∧ taken ⊆ s.dueExpiries ∧ settle fuel s = (takeInOrder taken s).redraw k ∧
      (takeInOrder taken s).dueExpiries = [] := by
  induction fuel generalizing s with
  | zero => exact ⟨[], s.freeIndex, .nil, List.nil_subset _, rfl, List.eq_nil_of_length_eq_zero (Nat.le_zero.1 enough)⟩
  | succ fuel ih =>
    by_cases none_ : s.dueExpiries = []
    · exact ⟨[], s.freeIndex, .nil, List.nil_subset _, settle_of_none_due none_ _, none_⟩
    obtain ⟨e, due, k, first⟩ := settle_succ none_ fuel
    have fewer := length_dueExpiries_takeExpiry safe.spaced due
    obtain ⟨taken, j, nodup, inside, settled, left⟩ :=
      ih (s := (takeExpiry e s).redraw k) (safe.takeExpiry live e) ((takeExpiry_resetting e s).trans live)
        (by rw [State.redraw_dueExpiries]; omega)
    rw [State.redraw_dueExpiries] at inside
    rw [(deaf_takeInOrder taken).redraw] at settled left
    rw [State.redraw_dueExpiries] at left
    have dueAfter {f : Expiry} (mem : f ∈ taken) : f ∈ s.dueExpiries ∧ f ≠ e := by
      obtain ⟨listed, after⟩ := State.mem_dueExpiries.1 (inside mem)
      obtain ⟨before, other⟩ := takeExpiry_due safe.spaced after
      exact ⟨State.mem_dueExpiries.2 ⟨listed, before⟩, other⟩
    refine ⟨e :: taken, j, List.nodup_cons.2 ⟨fun mem => (dueAfter mem).2 rfl, nodup⟩,
      List.cons_subset.2 ⟨due, fun f mem => (dueAfter mem).1⟩, first.trans settled, left⟩

/-- The expiries due, each once, in an order that settles them. -/
theorem settle_order {s : State} (safe : SlotsSafe s) (live : s.resetting = none) :
    ∃ order k, order.Perm s.dueExpiries ∧ settle expiryCount s = (takeInOrder order s).redraw k ∧
      (takeInOrder order s).dueExpiries = [] := by
  obtain ⟨taken, k, nodup, inside, settled, left⟩ := settle_takes expiryCount safe live s.length_dueExpiries_le
  let rest := s.dueExpiries.filter (· ∉ taken)
  have idle : takeInOrder (taken ++ rest) s = takeInOrder taken s := by
    rw [takeInOrder, List.foldl_append]
    refine takeInOrder_of_not_due (s := takeInOrder taken s) fun e mem due => ?_
    have listed := (State.mem_dueExpiries.1 (List.mem_of_mem_filter mem)).1
    have still : e ∈ (takeInOrder taken s).dueExpiries := State.mem_dueExpiries.2 ⟨listed, due⟩
    rw [left] at still
    cases still
  refine ⟨taken ++ rest, k, (List.perm_ext_iff_of_nodup ?_ s.dueExpiries_nodup).2 fun e => ?_, by rw [idle, settled],
    by rw [idle, left]⟩
  · exact List.nodup_append.2 ⟨nodup, s.dueExpiries_nodup.filter _, fun e mem f other same => by
      simp only [rest, List.mem_filter, decide_eq_true_eq] at other
      exact other.2 (same ▸ mem)⟩
  · simp only [rest, List.mem_append, List.mem_filter, decide_eq_true_eq]
    exact ⟨fun h => h.elim (fun mem => inside mem) And.left, fun due => (Decidable.em (e ∈ taken)).imp_right fun out => ⟨due, out⟩⟩

/-! ## The expiries one by one, and the tick -/

theorem takeExpiry_stamp (e : Expiry) (s : State) : (takeExpiry e s).stamp = s.stamp := by
  unfold takeExpiry
  split
  · cases e <;> simp [expiryEffect]
  · rfl

theorem settle_stamp (fuel : Nat) (s : State) : (settle fuel s).stamp = s.stamp :=
  settle_keeps (I := fun t => t.stamp = s.stamp) (fun e t h => (takeExpiry_stamp e t).trans h) (fun _ h => h) fuel rfl

theorem wakeTimerExpiry_wakes {s : State} {p : Port} (dozing : (s.unit p).state = .dozing)
    (admits : (s.unit p).wakeSet.timer = true) :
    wakeTimerExpiry p s = s.setUnit p { s.unit p with
      state := .waking, wakeTimer := none, ackTimer := some 250, wakeRecord := some ⟨.timer, s.stamp⟩ } := by
  let u : PortUnit := { s.unit p with wakeTimer := none }
  have taken : u.takeCause .timer s.stamp = u.enterWaking .timer s.stamp := PortUnit.takeCause_taken dozing admits
  rw [wakeTimerExpiry, present, State.modUnit, State.modUnit_unit_same, taken, State.modUnit, State.setUnit_setUnit]
  rfl

/-- Settles O47: each expiry by its condition, and the tick by the expiries it settles. -/
theorem timersAndTick : Obligations.TimersAndTick := by
  refine ⟨fun s live => ?_, fun s live => ?_⟩
  · have takes (e : Expiry) (due : s.Due e) : whenLive (takeExpiry e) s = expiryEffect e s :=
      takeExpiry_of_due live ((s.isDue_iff e).2 due)
    have early (e : Expiry) (not : ¬s.Due e) : whenLive (takeExpiry e) s = s :=
      takeExpiry_of_not_due live (State.not_isDue not)
    refine ⟨fun state zero => ?_, fun other => ?_, fun state zero => ?_, fun other => ?_, fun m stands zero => ?_,
      fun other => ?_, fun p state zero admits => ?_, fun p other => ?_⟩
    · exact congrArg Host.Outcome.next (takes .dwell ⟨state, zero⟩)
    · exact congrArg Host.Outcome.next (early .dwell (not_and_or.2 other))
    · exact congrArg Host.Outcome.next (takes .silence ⟨state, zero⟩)
    · exact congrArg Host.Outcome.next (early .silence (not_and_or.2 other))
    · exact congrArg Host.Outcome.next (takes .window ⟨m, stands, zero⟩)
    · exact congrArg Host.Outcome.next (early .window fun ⟨m, stands, zero⟩ => other m stands zero)
    · exact congrArg Host.Outcome.next ((takes (.wake p) ⟨state, zero⟩).trans (wakeTimerExpiry_wakes state admits))
    · exact congrArg Host.Outcome.next (early (.wake p) (not_and_or.2 other))
  · intro advanced row
    have ticks {u : State} (settled : settle expiryCount s = u) : exec .timebaseTick s = .next (advanced u) := by
      refine congrArg Host.Outcome.next ((whenLive_of_none _ live).trans ?_)
      rw [settled]
      rfl
    refine ⟨fun e => ?_, fun e => ?_, fun none_ => ticks (settle_of_none_due none_ _), fun e one none_ => ?_,
      fun safe => ?_, _, ticks rfl, congrArg (· + 1) (settle_stamp _ s)⟩
    · cases e <;> exact congrArg Host.Outcome.next (whenLive_of_none _ live)
    · rw [State.mem_dueExpiries, mem_allExpiries]
      cases e with
      | slot n => exact and_congr_left' ⟨fun h => h n rfl, fun h m same => by cases same; exact h⟩
      | dwell | silence | window | load | presence p | wake p | acknowledge p => exact and_iff_right nofun
    · exact ticks ((settle_of_one_due one _).trans (settle_of_none_due none_ _))
    · obtain ⟨order, k, perm, settled, left⟩ := settle_order safe live
      exact ⟨order, k, perm, (State.redraw_dueExpiries k _).trans left, ticks settled⟩

end Sys2Proof.Machine

/-! PROOF. DOZE, RESUME and the wake rule (08, R134 to R138, R140, R145, R147). -/

namespace Sys2Proof.Machine

/-! ## The checks of DOZE (R134, R136, R137) -/

theorem releaseLease_held {s : State} {p : Port} (lease : s.line.lease = some p) :
    releaseLease p s = ({ s with line := { s.line with lease := none } } : State).raiseActiveExcept p .leaseFree :=
  if_pos (by simp [State.holds, lease])

theorem releaseLease_not_held {s : State} {p : Port} (other : s.line.lease ≠ some p) : releaseLease p s = s :=
  if_neg (by simp [State.holds, other])

theorem State.mem_routes {s : State} {e : RouteEntry} : some e ∈ s.routes ↔ ∃ n, s.route n = some e := by
  simp only [State.route, List.getD_eq_getElem?_getD, List.mem_iff_getElem?]
  refine exists_congr fun n => ?_
  cases s.routes[n]? <;> simp

theorem State.selectiveCheck_iff (s : State) (p : Port) :
    s.selectiveCheck p = true ↔
      (∃ n e, s.route n = some e ∧ e.owner = p ∧ e.action = .deliver ∧ e.wake = true) ∧
        (s.line.state = .search ∨ s.line.state = .synced) := by
  simp only [selectiveCheck, Bool.and_eq_true, Bool.or_eq_true, beq_iff_eq, ownsWakeEntry, List.any_eq_true]
  refine and_congr_left' ⟨fun ⟨x, mem, owns⟩ => ?_, fun ⟨n, e, live, owns⟩ => ?_⟩
  · cases x with
    | none => cases owns
    | some e =>
      obtain ⟨n, live⟩ := State.mem_routes.1 mem
      exact ⟨n, e, live, by simpa [and_assoc] using owns⟩
  · exact ⟨some e, State.mem_routes.2 ⟨n, live⟩, by simpa [and_assoc] using owns⟩

theorem State.holdsWakeRecord_iff (s : State) (p : Port) :
    s.holdsWakeRecord p = true ↔ ∃ r ∈ (s.rx.get p).queue, r.wakeMark = true := List.any_eq_true

theorem State.found_effectiveSet (s : State) (p q : Port) (rest : List Byte) (w : WakeSet) :
    (s.found q rest).effectiveSet p w = s.effectiveSet p w := rfl

theorem State.effectiveSet_eq {s : State} {p : Port} {w eff : WakeSet} (general : eff.general = w.general)
    (timer : eff.timer = w.timer)
    (selective : eff.selective = true ↔ w.selective = true ∧ s.selectiveCheck p = true) : s.effectiveSet p w = eff := by
  obtain ⟨sel, gen, tim⟩ := eff
  subst general timer
  simp only [State.effectiveSet, WakeSet.mk.injEq, and_self, and_true]
  exact Bool.eq_iff_iff.2 (by rw [Bool.and_eq_true]; exact selective.symm)

/-! ## DOZE taken (R135 to R138) -/

theorem State.modUnit_modUnit (s : State) (p : Port) (f g : PortUnit → PortUnit) :
    (s.modUnit p f).modUnit p g = s.modUnit p (fun u => g (f u)) := by
  rw [State.modUnit, State.modUnit_unit_same, State.modUnit, State.setUnit_setUnit, State.modUnit]

theorem State.modUnit_congr {s : State} {p : Port} {f g : PortUnit → PortUnit} (same : ∀ u, f u = g u) :
    s.modUnit p f = s.modUnit p g := congrArg _ (funext same)

theorem State.modUnit_ite (s : State) (p : Port) (c : Bool) (f : PortUnit → PortUnit) :
    (if c = true then s.modUnit p f else s) = s.modUnit p (fun u => if c = true then f u else u) := by
  cases c with
  | false => cases p <;> rfl
  | true => rfl

/-- The unit of a port as a DOZE leaves it: the set in force, WAKE_CFG_FAULT, and PENDING taken at once. -/
def PortUnit.dozed (eff : WakeSet) (period : Nat) (fault pending : Bool) (stamp : Stamp) (u : PortUnit) : PortUnit :=
  { u with
    state := if pending then .waking else .dozing
    presenceTimer := none
    wakeSet := eff
    wakePeriod := if eff.timer then some period else none
    wakeTimer := if eff.timer && !pending then some period else none
    ackTimer := if pending then some 250 else none
    wakeRecord := if pending then some ⟨.pending, stamp⟩ else none
    flags := if fault then u.flags ||| EventFlag.wakeCfgFault.mask else u.flags }

/-- Entry to DOZING, then WAKE_CFG_FAULT, then PENDING. -/
theorem PortUnit.dozed_eq (u : PortUnit) (eff : WakeSet) (period : Nat) (fault pending : Bool) (stamp : Stamp) :
    (fun v : PortUnit => if pending = true then v.takeCause .pending stamp else v)
        (if fault = true then (u.doze eff period).raise .wakeCfgFault else u.doze eff period) =
      u.dozed eff period fault pending stamp := by
  have woken {v : PortUnit} (dozing : v.state = .dozing) : v.takeCause .pending stamp = v.enterWaking .pending stamp :=
    takeCause_taken dozing rfl
  have raised : ((u.doze eff period).raise .wakeCfgFault).takeCause .pending stamp =
      ((u.doze eff period).raise .wakeCfgFault).enterWaking .pending stamp := woken rfl
  have plain : (u.doze eff period).takeCause .pending stamp = (u.doze eff period).enterWaking .pending stamp := woken rfl
  cases pending with
  | false => cases fault <;> simp [dozed, doze, raise]
  | true =>
    cases fault with
    | false => exact plain.trans (by simp [dozed, doze, enterWaking, Config.wakeAckTime])
    | true => exact raised.trans (by simp [dozed, doze, raise, enterWaking, Config.wakeAckTime])

theorem takeDoze_eq (p : Port) (w : WakeSet) (period : Nat) (s : State) :
    takeDoze p w period s = (releaseLease p s).modUnit p (PortUnit.dozed (s.effectiveSet p w) period
      (w.selective && !s.selectiveCheck p) (s.holdsWakeRecord p) s.stamp) := by
  simp only [takeDoze, State.raise, present]
  rw [State.modUnit_ite, State.modUnit_ite, State.modUnit_modUnit, State.modUnit_modUnit]
  exact State.modUnit_congr fun u => u.dozed_eq _ _ _ _ _

theorem dozeBody_outOfRange {p : Port} {s : State} {b : Byte} {period : Word16}
    (out : 8 ≤ b.toNat ∨ (b.getLsbD 2 = true ∧ period.toNat < 10)) :
    dozeBody p (b :: octets2 period) s = refuse s .outOfRange := by
  have octet : octetAt (b :: octets2 period) 0 = b := rfl
  have word : wordAt (b :: octets2 period) 1 = period := high_append_low period
  simp only [dozeBody, octet, word]
  split
  · rfl
  · next w read =>
    refine if_pos ?_
    unfold WakeSet.ofOctet at read
    split at read
    · next small =>
      obtain ⟨timer, early⟩ := out.resolve_left (Nat.not_le.2 small)
      obtain rfl := Option.some.inj read
      exact ⟨timer, early⟩
    · cases read

theorem dozeBody_taken {p : Port} {s : State} {w : WakeSet} {period : Word16} (long : w.timer = false ∨ 10 ≤ period.toNat) :
    dozeBody p (w.octet :: octets2 period) s =
      accept (takeDoze p w period.toNat s) [(s.effectiveSet p w).octet, flagOctet (s.holdsWakeRecord p)] := by
  have octet : octetAt (w.octet :: octets2 period) 0 = w.octet := rfl
  have word : wordAt (w.octet :: octets2 period) 1 = period := high_append_low period
  simp only [dozeBody, octet, word, WakeSet.ofOctet_octet]
  refine if_neg fun ⟨timer, early⟩ => ?_
  obtain off | late := long
  · simp [off] at timer
  · omega

/-- Settles O48: the set in force by the wake set and the selective check, and the doze that takes it. -/
theorem dozeTaken : Obligations.DozeTaken := by
  refine ⟨fun p s => ⟨releaseLease_held, releaseLease_not_held⟩, fun p filler s active => ⟨fun b period out => ?_, ?_⟩⟩
  · exact exec_active .doze active (by simp [octets2]) rfl rfl (dozeBody_outOfRange out)
  · intro w eff period pending long check general timer selective stands rest
    have checked : s.selectiveCheck p = true ↔ check := s.selectiveCheck_iff p
    have inForce : s.effectiveSet p w = eff :=
      State.effectiveSet_eq general timer (selective.trans (and_congr_right' checked.symm))
    have fault : (w.selective && !s.selectiveCheck p) = (w.selective && !eff.selective) := by
      rw [← inForce, State.effectiveSet]
      cases w.selective <;> rfl
    obtain rfl : pending = s.holdsWakeRecord p := Bool.eq_iff_iff.2 (stands.trans (s.holdsWakeRecord_iff p).symm)
    refine (exec_active .doze active (by simp [octets2]) rfl rfl (dozeBody_taken long)).trans
      (congrArg Host.Outcome.next ?_)
    rw [takeDoze_eq, State.found_selectiveCheck, State.found_holdsWakeRecord, fault,
      State.found_effectiveSet, inForce, ← timer]
    rfl

/-! ## RESUME and the wake rule (R140, R147) -/

/-- Settles O49: RESUME answers the wake record, and a cause is taken by the wake set. -/
theorem resumeAndWakeRule : Obligations.ResumeAndWakeRule := by
  refine ⟨fun p filler s ready asleep => ?_, fun u cause stamp => ?_, fun s p => State.presentLine_unit s p, fun s => rfl⟩
  · refine exec_taken .resume ready (by simp) rfl ?_ ?_
    · obtain dozing | waking := asleep
      · rw [dozing]; rfl
      · rw [waking]; rfl
    · simp only [Command.body, resumeBody, State.found_unit_wakeRecord]
      rfl
  · intro admitted
    have admits : u.wakeSet.admits cause = true ↔ admitted := by
      cases cause with
      | pending => exact iff_true_intro rfl
      | route n | line | general | timer => exact Iff.rfl
    refine ⟨fun dozing does => PortUnit.takeCause_taken dozing (admits.2 does), fun ignored => ?_⟩
    refine PortUnit.takeCause_ignored fun ⟨dozing, does⟩ => ?_
    exact ignored.elim (fun awake => awake dozing) (fun not => not (admits.1 does))

end Sys2Proof.Machine

/-! PROOF. The quiet input: its commands, its edges, and the orders in which they meet the slot commands (06, R115, R116; 10,
R170 to R174). -/

namespace Sys2Proof.Machine

/-! ## The input (R170, R171, R173) -/

theorem QuietInput.atActiveLevel_iff (q : QuietInput) :
    q.atActiveLevel = true ↔ (q.selection = .rising ∧ q.pin = true) ∨ (q.selection = .falling ∧ q.pin = false) := by
  unfold QuietInput.atActiveLevel
  cases q.selection <;> simp

theorem QuietSelection.admits_iff (sel : QuietSelection) (sense : Sense) :
    sel.admits sense = true ↔
      sel = .both ∨ (sel = .rising ∧ sense = .rising) ∨ (sel = .falling ∧ sense = .falling) := by
  cases sel <;> cases sense <;> simp [QuietSelection.admits]

theorem QuietSelection.ofCode_of_toNat {code : Byte} {sel : QuietSelection}
    (h : (code.toNat = 0 ∧ sel = .none) ∨ (code.toNat = 1 ∧ sel = .rising) ∨ (code.toNat = 2 ∧ sel = .falling) ∨
      (code.toNat = 3 ∧ sel = .both)) : QuietSelection.ofCode code = some sel := by
  rcases h with ⟨value, rfl⟩ | ⟨value, rfl⟩ | ⟨value, rfl⟩ | ⟨value, rfl⟩ <;> simp [QuietSelection.ofCode, value]

section
variable {p : Port} {code : Byte} {s : State}

theorem quietConfigBody_outOfRange (holds : s.holds p = true) (above : 3 < code.toNat) :
    quietConfigBody p [code] s = refuse s .outOfRange := by
  have octet : octetAt [code] 0 = code := rfl
  simp [quietConfigBody, holds, octet, QuietSelection.ofCode_above above]

theorem quietConfigBody_taken (holds : s.holds p = true) {sel : QuietSelection} (read : QuietSelection.ofCode code = some sel) :
    quietConfigBody p [code] s = accept { s with quiet := { s.quiet with selection := sel } } [] := by
  have octet : octetAt [code] 0 = code := rfl
  simp [quietConfigBody, holds, octet, read]

end

section
variable {ps : List Byte} {s : State}

theorem quietClearBody_level (level : s.quiet.atActiveLevel = true) : quietClearBody ps s = refuse s .quietActive :=
  if_pos level

theorem quietClearBody_unlatched (level : s.quiet.atActiveLevel = false) (clear : s.quiet.latch = false) :
    quietClearBody ps s = refuse s .wrongState := by
  simp [quietClearBody, level, clear]

theorem quietClearBody_taken (level : s.quiet.atActiveLevel = false) (latch : s.quiet.latch = true) :
    quietClearBody ps s = accept (releaseSlots { s with quiet := { s.quiet with latch := false } }) [] := by
  simp [quietClearBody, level, latch]

end

/-- QUIET_CONFIG and QUIET_CLEAR. -/
theorem quietCommands_act (p : Port) (sel : QuietSelection) (code : Byte) (filler : List Byte) (s : State) (active : s.Active p) :
    (s.line.lease ≠ some p → exec (.quietConfig p (clockedIn [code] filler)) s =
      .next (s.answered p (clockedIn [code] filler) ⟨.noLease, []⟩)) ∧
    (s.line.lease = some p → 3 < code.toNat → exec (.quietConfig p (clockedIn [code] filler)) s =
      .next (s.answered p (clockedIn [code] filler) ⟨.outOfRange, []⟩)) ∧
    (s.line.lease = some p → QuietSelection.ofCode code = some sel → exec (.quietConfig p (clockedIn [code] filler)) s =
      .next (({ s.found p (clockedIn [code] filler) with quiet := { s.quiet with selection := sel } } : State).setHolder p
        ⟨.ok, []⟩)) ∧
    (s.quiet.atActiveLevel = true → exec (.quietClear p (clockedIn [] filler)) s =
      .next (s.answered p (clockedIn [] filler) ⟨.quietActive, []⟩)) ∧
    (s.quiet.atActiveLevel = false → s.quiet.latch = false → exec (.quietClear p (clockedIn [] filler)) s =
      .next (s.answered p (clockedIn [] filler) ⟨.wrongState, []⟩)) ∧
    (s.quiet.atActiveLevel = false → s.quiet.latch = true → exec (.quietClear p (clockedIn [] filler)) s =
      .next (({ s.found p (clockedIn [] filler) with
        slots := s.slots.map (Option.map Slot.release), quiet := { s.quiet with latch := false } } : State).setHolder p
          ⟨.ok, []⟩)) := by
  refine ⟨fun other => ?_, fun lease above => ?_, fun lease read => ?_, fun level => ?_, fun level clear => ?_,
    fun level latch => ?_⟩
  · exact exec_active .quietConfig active (by simp) rfl rfl (if_pos (State.found_of_no_lease other))
  · exact exec_active .quietConfig active (by simp) rfl rfl
      (quietConfigBody_outOfRange (State.found_of_lease lease) above)
  · exact exec_active .quietConfig active (by simp) rfl rfl
      (quietConfigBody_taken (State.found_of_lease lease) read)
  · exact exec_active .quietClear active (by simp) rfl rfl (quietClearBody_level (ps := []) (s := s.found p _) level)
  · exact exec_active .quietClear active (by simp) rfl rfl (quietClearBody_unlatched (ps := []) (s := s.found p _) level clear)
  · exact exec_active .quietClear active (by simp) rfl rfl (quietClearBody_taken (ps := []) (s := s.found p _) level latch)

/-! ## The latch set (R115, R172) -/

theorem Slot.halt_withdrawn (sl : Slot) : ({ sl with due := none } : Slot).halt = sl.halt := by
  unfold Slot.halt
  split <;> simp_all

/-- What the abort deletes, the halt deletes. -/
theorem abortAttempt_slot_halt (s : State) (n : Nat) :
    ((abortAttempt s).slot n).map Slot.halt = (s.slot n).map Slot.halt := by
  have deleted (m : Nat) (t : State) : ((dueAborted m t).slot n).map Slot.halt = (t.slot n).map Slot.halt := by
    cases live : t.slot m with
    | none => rw [dueAborted, State.modSlot_of_none live]
    | some sl =>
      rw [dueAborted, State.modSlot_of_some live]
      by_cases same : n = m
      · subst same
        rw [State.setSlot_slot_same (State.slot_lt live), live, Option.map_some, Option.map_some, Slot.halt_withdrawn]
      · rw [State.setSlot_slot_ne _ _ same]
  cases flies : s.line.inFlight with
  | none => rw [abortAttempt, flies]
  | some r =>
    rw [abortAttempt_eq flies]
    cases r.source with
    | dueEntry m => exact deleted m _
    | queueHead p => rfl
    | none => rfl

theorem setLatch_slot (s : State) (n : Nat) : (setLatch s).slot n = (s.slot n).map Slot.halt :=
  (haltSlots_slot (abortAttempt s) n).trans (abortAttempt_slot_halt s n)

theorem setLatch_quiet_latch (s : State) : (setLatch s).quiet.latch = true := rfl

theorem setLatch_eq (s : State) :
    setLatch s = ({ abortAttempt s with
      slots := (abortAttempt s).slots.map (Option.map Slot.halt), quiet := { s.quiet with latch := true } } :
        State).raiseActive .quiet := by
  rw [setLatch, haltSlots, abortAttempt_quiet]

/-- The pin follows the edge (R170). -/
def State.moved (sense : Sense) (s : State) : State := { s with quiet := { s.quiet with pin := levelAfter sense } }

/-- A selected edge acts where the hub is not in a device reset, READY, its latch clear (R170, R172). -/
theorem quietEdge_acts {sense : Sense} {s : State} (live : s.resetting = none) (ready : s.loader.state = .ready)
    (clear : s.quiet.latch = false) (admits : s.quiet.selection.admits sense = true) :
    quietEdge sense s = setLatch (s.moved sense) :=
  (whenLive_of_none (s := s.moved sense) (actOnEdge sense) live).trans (if_pos ⟨ready, admits, clear⟩)

theorem quietEdge_ignored {sense : Sense} {s : State}
    (ignored : ¬(s.resetting = none ∧ s.loader.state = .ready ∧ s.quiet.latch = false ∧
      s.quiet.selection.admits sense = true)) : quietEdge sense s = s.moved sense := by
  by_cases live : s.resetting = none
  · refine (whenLive_of_none (s := s.moved sense) (actOnEdge sense) live).trans (if_neg fun ⟨ready, admits, clear⟩ => ?_)
    exact ignored ⟨live, ready, clear, admits⟩
  · exact whenLive_of_some (s := s.moved sense) (actOnEdge sense) live

/-! ## Ports that a command still finds ACTIVE -/

/-- What decides whether a port's commands are taken is as before. -/
structure Heeds (s t : State) : Prop where
  resetting : t.resetting = s.resetting
  loader : t.loader = s.loader
  unit : ∀ p, (t.unit p).state = (s.unit p).state ∧ (t.unit p).staleSelect = (s.unit p).staleSelect

theorem Heeds.active {s t : State} (h : Heeds s t) {p : Port} (active : s.Active p) : t.Active p := by
  obtain ⟨⟨⟨live, fresh⟩, ready⟩, state⟩ := active
  obtain ⟨same, mark⟩ := h.unit p
  exact ⟨⟨⟨h.resetting.trans live, mark.trans fresh⟩, by rw [h.loader, ready]⟩, same.trans state⟩

theorem Heeds.trans {s t u : State} (h : Heeds s t) (k : Heeds t u) : Heeds s u :=
  ⟨k.resetting.trans h.resetting, k.loader.trans h.loader, fun p =>
    ⟨(k.unit p).1.trans (h.unit p).1, (k.unit p).2.trans (h.unit p).2⟩⟩

theorem Heeds.of_ports {s t : State} (ports : t.ports = s.ports) (resetting : t.resetting = s.resetting)
    (loader : t.loader = s.loader) : Heeds s t :=
  ⟨resetting, loader, fun p => by simp [State.unit, ports]⟩

theorem heeds_found (s : State) (p : Port) (rest : List Byte) : Heeds s (s.found p rest) :=
  ⟨rfl, rfl, fun q => ⟨State.found_unit_state s p q rest, State.found_unit_staleSelect s p q rest⟩⟩

theorem heeds_setHolder (s : State) (p : Port) (r : Response) : Heeds s (s.setHolder p r) := by
  refine ⟨rfl, rfl, fun q => ?_⟩
  by_cases same : q = p
  · subst same
    rw [State.setHolder_unit_same]
    exact ⟨rfl, rfl⟩
  · rw [State.setHolder_unit_ne _ _ _ same]
    exact ⟨rfl, rfl⟩

theorem heeds_setLatch (s : State) : Heeds s (setLatch s) := by
  have ended : Heeds s (haltSlots (abortAttempt s)) := .of_ports (by simp) (by simp) (by simp)
  refine ended.trans ⟨rfl, rfl, fun p => ?_⟩
  rw [setLatch, FlagsGained.unit (State.raiseActive_flagsGained _ _) p]
  exact ⟨rfl, rfl⟩

/-- A command's answer, its block having left the ports and the loader. -/
theorem Heeds.answered {s t : State} {p : Port} (rest : List Byte) (ports : t.ports = (s.found p rest).ports)
    (resetting : t.resetting = s.resetting) (loader : t.loader = s.loader) (r : Response) : Heeds s (t.setHolder p r) :=
  ((heeds_found s p rest).trans (.of_ports ports resetting loader)).trans (heeds_setHolder t p r)

end Sys2Proof.Machine

/-! PROOF. The quiet input beside the slot commands, in both orders (06, R115, R116; 10, R173, R174). -/

namespace Sys2Proof.Machine

/-! ## What one command or edge leaves -/

/-- QUIET_CLEAR releases every slot and clears the latch. -/
theorem quietClear_leaves {p : Port} {s : State} (filler : List Byte) (active : s.Active p)
    (level : s.quiet.atActiveLevel = false) (latch : s.quiet.latch = true) :
    ∃ t, exec (.quietClear p (clockedIn [] filler)) s = .next t ∧ Heeds s t ∧
      ∀ n, t.slot n = (s.slot n).map Slot.release := by
  obtain ⟨-, -, -, -, -, takes⟩ := quietCommands_act p .none 0 filler s active
  refine ⟨_, takes level latch, Heeds.answered (clockedIn [] filler) ?_ ?_ ?_ _, fun n => ?_⟩
  · rfl
  · rfl
  · rfl
  · exact State.mapSlots_slot (s.found p (clockedIn [] filler)) Slot.release n

/-- SLOT_STOP without the flag stops a slot in every other state at once. -/
theorem slotStop_leaves {p : Port} {n : Byte} {sl : Slot} {s : State} (filler : List Byte) (active : s.Active p)
    (inside : n.toNat ≤ 23) (live : s.slot n.toNat = some sl) (own : sl.owner = p) (other : sl.state ≠ .stopped) :
    ∃ t, exec (.slotStop p (clockedIn [n, flagOctet false] filler)) s = .next t ∧ Heeds s t ∧ t.quiet = s.quiet ∧
      t.slot n.toNat = some { sl with state := .stopped, nextExpiry := none, due := none } := by
  obtain ⟨-, -, -, -, -, -, stops⟩ := slotStartedAndStopped p n sl filler s active inside live own
  obtain ⟨-, takes, -⟩ := stops false
  refine ⟨_, takes other (.inl rfl), Heeds.answered (clockedIn [n, flagOctet false] filler) ?_ ?_ ?_ _, ?_, ?_⟩
  · exact cut_ports ..
  · exact cut_resetting ..
  · exact cut_loader ..
  · exact cut_quiet ..
  · refine State.setSlot_slot_same ?_ _
    rw [cut_slots]
    exact State.slot_lt live

/-- The state a start from STOPPED leaves, RUNNING or ARMED by the start source, or HALTED with it held. -/
def Slot.startHeld (sl : Slot) : HeldState := if sl.source = .command then .running else .armed

/-- SLOT_START from STOPPED, by the latch. -/
theorem slotStart_leaves {p : Port} {n : Byte} {sl : Slot} {s : State} (filler : List Byte) (active : s.Active p)
    (inside : n.toNat ≤ 23) (live : s.slot n.toNat = some sl) (own : sl.owner = p) (stopped : sl.state = .stopped) :
    ∃ t, exec (.slotStart p (clockedIn [n] filler)) s = .next t ∧ Heeds s t ∧ t.quiet = s.quiet ∧
      t.slot n.toNat = some (sl.started s.quiet.latch) := by
  let rest := clockedIn [n] filler
  let t := (s.found p rest).setSlot n.toNat (some (sl.started s.quiet.latch))
  have reply : startReply n.toNat (s.found p rest) sl = (t, ⟨.ok, []⟩) := by
    rw [startReply, stopped]
    rfl
  exact ⟨t.setHolder p ⟨.ok, []⟩,
    exec_active .slotStart active (by simp) rfl rfl ((namedSlot_found inside live own).trans reply),
    Heeds.answered (t := t) rest rfl rfl rfl _, rfl, State.setSlot_slot_same (State.slot_lt live) _⟩

/-- A selected edge sets the latch and halts every slot. -/
theorem quietEdge_leaves {p : Port} {s : State} {sense : Sense} (active : s.Active p) (clear : s.quiet.latch = false)
    (admits : s.quiet.selection.admits sense = true) :
    ∃ t, exec (.quietEdge sense) s = .next t ∧ Heeds s t ∧ t.quiet.latch = true ∧
      ∀ n, t.slot n = (s.slot n).map Slot.halt := by
  refine ⟨_, congrArg Host.Outcome.next (quietEdge_acts active.1.1.1 active.1.2 clear admits), ?_, rfl,
    setLatch_slot (s.moved sense)⟩
  exact (Heeds.of_ports (s := s) (t := s.moved sense) rfl rfl rfl).trans (heeds_setLatch _)

/-! ## Slots -/

theorem Slot.release_eq {sl : Slot} {held : HeldState} (halted : sl.state = .halted held) :
    ∃ st next, st ≠ .stopped ∧ sl.release = { sl with state := st, nextExpiry := next } := by
  cases held with
  | armed => exact ⟨.armed, sl.nextExpiry, nofun, by simp only [Slot.release, halted]⟩
  | running => exact ⟨.running, some sl.offset, nofun, by simp only [Slot.release, halted]; rfl⟩
  | finishing => exact ⟨.finishing, some sl.offset, nofun, by simp only [Slot.release, halted]; rfl⟩

/-- A start, then the edge. -/
theorem Slot.halt_started {sl : Slot} (idle : sl.nextExpiry = none) :
    (sl.started false).halt = { sl with staleRun := 0, state := .halted sl.startHeld, due := none } := by
  cases source : sl.source with
  | command => simp [Slot.started, source, Slot.anchored, Slot.halt, Slot.startHeld, idle]
  | trigger pin => simp [Slot.started, source, Slot.halt, Slot.startHeld, idle]

/-- The edge, then a start. -/
theorem Slot.started_halt {sl : Slot} (stopped : sl.state = .stopped) :
    sl.halt.started true = { sl with staleRun := 0, state := .halted sl.startHeld, due := none } := by
  have halted : sl.halt = { sl with due := none } := by simp only [Slot.halt, stopped]
  rw [halted]
  cases source : sl.source with
  | command => simp [Slot.started, source, Slot.startHeld]
  | trigger pin => simp [Slot.started, source, Slot.startHeld]

/-! ## Both orders -/

/-- Settles O50: the quiet commands by the input's level, and the release of a halted slot by its held state. -/
theorem quietInputActs : Obligations.QuietInputActs := by
  refine ⟨fun p sel code filler s active => ?_, fun p q n sl held atClear atStop s activeP activeQ live inside own halted latch
    inactive => ?_, fun p n sl sense filler s active live inside own stopped idle clear admits => ?_, fun sense s => ?_⟩
  · intro rest clear activeLevel released
    obtain ⟨noLease, above, config, level, unlatched, clears⟩ := quietCommands_act p sel code filler s active
    have level_ : s.quiet.atActiveLevel = true ↔ activeLevel := s.quiet.atActiveLevel_iff
    have notLevel (not : ¬activeLevel) : s.quiet.atActiveLevel = false := Bool.eq_false_iff.2 (level_.not.2 not)
    exact ⟨noLease, above, fun lease read => config lease (QuietSelection.ofCode_of_toNat read), fun h => level (level_.2 h),
      fun not => unlatched (notLevel not), fun not => clears (notLevel not)⟩
  · have level : s.quiet.atActiveLevel = false := Bool.eq_false_iff.2 (s.quiet.atActiveLevel_iff.not.2 inactive)
    intro clear stop stopped
    refine ⟨?_, ?_⟩
    · obtain ⟨t, clears, heeds, slots⟩ := quietClear_leaves atClear activeP level latch
      obtain ⟨st, next, runs, release⟩ := Slot.release_eq halted
      have released : t.slot n.toNat = some { sl with state := st, nextExpiry := next } := by
        rw [slots, live, Option.map_some, release]
      obtain ⟨u, stops, -, -, ends⟩ := slotStop_leaves atStop (heeds.active activeQ) inside released own runs
      exact ⟨t, u, clears, stops, ends⟩
    · obtain ⟨t, stops, heeds, quiet, ends⟩ :=
        slotStop_leaves atStop activeQ inside live own (by rw [halted]; nofun)
      obtain ⟨u, clears, -, slots⟩ :=
        quietClear_leaves atClear (heeds.active activeP) (by rw [quiet, level]) (by rw [quiet, latch])
      refine ⟨t, u, stops, clears, ?_⟩
      rw [slots, ends]
      rfl
  · have admits_ := (s.quiet.selection.admits_iff sense).2 admits
    intro start edge halted
    refine ⟨?_, ?_⟩
    · obtain ⟨t, starts, heeds, quiet, slot⟩ := slotStart_leaves filler active inside live own stopped
      obtain ⟨u, edges, -, -, slots⟩ :=
        quietEdge_leaves (heeds.active active) (by rw [quiet, clear]) (by rw [quiet]; exact admits_)
      refine ⟨t, u, starts, edges, ?_⟩
      rw [slots, slot, clear, Option.map_some, Slot.halt_started idle]
      rfl
    · obtain ⟨t, edges, heeds, latch, slots⟩ := quietEdge_leaves active clear admits_
      have here : t.slot n.toNat = some sl.halt := by rw [slots, live, Option.map_some]
      have still : sl.halt.state = .stopped ∧ sl.halt.owner = p := by
        simp only [Slot.halt, stopped, own, and_self]
      obtain ⟨u, starts, -, -, slot⟩ := slotStart_leaves filler (heeds.active active) inside here still.2 still.1
      refine ⟨t, u, edges, starts, ?_⟩
      rw [slot, latch, Slot.started_halt stopped]
      rfl
  · intro level acts moved aborted halted
    have acts_ : (s.resetting = none ∧ s.loader.state = .ready ∧ s.quiet.latch = false ∧
        s.quiet.selection.admits sense = true) ↔ acts :=
      and_congr_right fun _ => and_congr_right fun _ => and_congr_right fun _ => s.quiet.selection.admits_iff sense
    refine ⟨fun not => congrArg Host.Outcome.next (quietEdge_ignored (acts_.not.2 not)), fun does => ?_⟩
    obtain ⟨live, ready, clear, admits⟩ := acts_.2 does
    exact congrArg Host.Outcome.next ((quietEdge_acts live ready clear admits).trans (setLatch_eq _))

end Sys2Proof.Machine

/-! PROOF. The device reset and the end of the load (11, R176 to R180, Table 11-2). -/

namespace Sys2Proof.Machine

/-! ## Device reset (R176, R177) -/

theorem mergeKind_eq (before : Option ResetKind) (kind : ResetKind) :
    mergeKind before kind = if kind = .powerOn ∨ before = some .powerOn then .powerOn else .pin := by
  cases before with
  | none => cases kind <;> rfl
  | some k => cases k <;> cases kind <;> rfl

/-- During a device reset no output is driven. -/
theorem outputs_of_resetting {s : State} {kind : ResetKind} (lasts : s.resetting = some kind) :
    s.len = false ∧ s.imageBus = [] ∧ ∀ p, s.attn p = false ∧ s.waken p = false := by
  simp [State.len, State.imageBus, State.attn, State.waken, lasts]

/-- Settles O51: a start merges the kinds and releases the outputs, and an end reads the straps and the pins. -/
theorem deviceReset : Obligations.DeviceReset := by
  refine ⟨fun kind s => ⟨resetStart kind s, rfl, ?_, ?_⟩, fun kind pins s lasts => ?_, fun pins s live => ?_, fun l => ?_⟩
  · exact congrArg some (mergeKind_eq _ _)
  · obtain ⟨len, bus, pins⟩ := outputs_of_resetting (s := resetStart kind s) rfl
    exact ⟨len, bus, pins, rfl, rfl⟩
  · intro port reads
    refine congrArg Host.Outcome.next ?_
    rw [resetEnd, lasts]
    exact loadDecision_resetValues kind pins s
  · exact congrArg Host.Outcome.next (by rw [resetEnd, live])
  · unfold Loader.busAddress
    cases l.straps.adr1 <;> cases l.straps.adr0 <;> rfl

/-! ## The end of the load (R177 to R180) -/

theorem whileLoading_of_loading {s : State} (loading : s.loader.state = .loading) (f : State → State) :
    whileLoading f s = f s := if_pos loading

theorem whileLoading_of_ready {s : State} (ready : s.loader.state = .ready) (f : State → State) : whileLoading f s = s :=
  if_neg (by rw [ready]; nofun)

theorem imageRead_of_none {image : List Byte} (fails : readImage image = none) (s : State) :
    imageRead image s = installBuiltIn true s := by
  rw [imageRead, fails]

theorem imageRead_of_some {image : List Byte} {i : Image} (passes : readImage image = some i) (s : State) :
    imageRead image s = installImage i s := by
  rw [imageRead, passes]

theorem readImage_of_length {image : List Byte} (length : image.length ≠ 262) : readImage image = none :=
  if_neg fun ⟨whole, _⟩ => length whole

theorem LineUnit.started_auto {u : LineUnit} (auto : u.rateMode = .auto) :
    u.started = { u with
      state := .search, trialRate := u.configuredRate, cleanCount := 0, dwellTimer := some 40, errorCount := 0
      silenceTimer := none, silentFlag := false, receiverPeriod := u.receiverPeriod + 1 } := by
  unfold started
  split
  · rfl
  · next fixed => simp [auto] at fixed

theorem LineUnit.started_fixed {u : LineUnit} (fixed : u.rateMode = .fixed) :
    u.started = { u with
      state := .synced, trialRate := u.configuredRate, cleanCount := 0, dwellTimer := none, errorCount := 0
      silenceTimer := some u.silenceTime, silentFlag := false, receiverPeriod := u.receiverPeriod + 1 } := by
  unfold started
  split
  · next auto => simp [fixed] at auto
  · rfl

theorem installImage_off {i : Image} (off : i.lineOn = false) (s : State) : installImage i s = i.installed s := by
  rw [installImage_eq, if_neg (by simp [off])]

/-- The image starts a line that is OFF (R179). -/
theorem installImage_on {i : Image} (on : i.lineOn = true) {s : State} (off : s.line.state = .off) :
    installImage i s = ({ i.installed s with line := (i.installed s).line.started } : State).raiseAll .lineChange := by
  have state : (i.installed s).line.state = .off := off
  rw [installImage_eq, if_pos on, startLine_changed (by rw [state]; exact LineUnit.started_state_ne_off _)]

/-- Settles O52: each end of the transfer while LOADING, and none of them once READY. -/
theorem loadEnds : Obligations.LoadEnds := by
  intro image s live installed failed
  have runs (f : State → State) : whenLive f s = f s := whenLive_of_none f live
  refine ⟨fun loading => ?_, fun ready => ?_⟩
  · have ends {f : State → State} {t : State} (h : f s = t) : whenLive (whileLoading f) s = t :=
      (runs _).trans ((whileLoading_of_loading loading f).trans h)
    have fails (none_ : readImage image = none) : exec (.imageReadComplete image) s = .next failed :=
      congrArg Host.Outcome.next (ends (imageRead_of_none none_ s))
    refine ⟨congrArg Host.Outcome.next (ends rfl), fun zero => congrArg Host.Outcome.next ?_, fails,
      fun length => fails (readImage_of_length length), fun i passes off => ?_⟩
    · exact takeExpiry_of_due live ((s.isDue_iff .load).2 ⟨loading, zero⟩)
    · intro ds t
      have reads {u : State} (h : installImage i s = u) : exec (.imageReadComplete image) s = .next u :=
        congrArg Host.Outcome.next (ends ((imageRead_of_some passes s).trans h))
      have whole : i.installed s = t := rfl
      refine ⟨fun stays => reads (installImage_off stays s), fun on auto => reads ?_, fun on fixed => reads ?_⟩
      · rw [installImage_on on off, LineUnit.started_auto (u := (i.installed s).line) auto, whole]
      · rw [installImage_on on off, LineUnit.started_fixed (u := (i.installed s).line) fixed, whole]
  · have idle (f : State → State) : whenLive (whileLoading f) s = s := (runs _).trans (whileLoading_of_ready ready f)
    refine ⟨congrArg Host.Outcome.next (idle _), congrArg Host.Outcome.next ?_, congrArg Host.Outcome.next (idle _)⟩
    exact takeExpiry_of_not_due live (State.not_isDue fun ⟨loading, _⟩ => by rw [ready] at loading; cases loading)

end Sys2Proof.Machine

/-! PROOF. Which images pass, and what they set (11, R178, Table 11-1; 12, Table 12-7). -/

namespace Sys2Proof.Machine

/-! ## Codes read back -/

theorem flagOf_eq_some {b : Byte} {x : Bool} : flagOf b = some x ↔ b.toNat ≤ 1 ∧ (x = true ↔ b.toNat = 1) := by
  unfold flagOf
  split
  · next zero => simp [zero]
  · next one => simp [one]
  · next zero one =>
    have zero : b.toNat ≠ 0 := zero
    have one : b.toNat ≠ 1 := one
    exact ⟨nofun, fun ⟨small, _⟩ => by omega⟩

theorem RateMode.code_of_ofCode {b : Byte} {x : RateMode} (read : RateMode.ofCode b = some x) : x.code = b := by
  unfold RateMode.ofCode at read
  split at read <;> cases read <;> exact BitVec.eq_of_toNat_eq (by simp [*, RateMode.code])

theorem Rate.code_of_ofCode {b : Byte} {x : Rate} (read : Rate.ofCode b = some x) : x.code = b := by
  unfold Rate.ofCode at read
  split at read <;> cases read <;> exact BitVec.eq_of_toNat_eq (by simp [*, Rate.code])

theorem LineMode.code_of_ofCode {b : Byte} {x : LineMode} (read : LineMode.ofCode b = some x) : x.code = b := by
  unfold LineMode.ofCode at read
  split at read <;> cases read <;> exact BitVec.eq_of_toNat_eq (by simp [*, LineMode.code])

theorem Policy.code_of_ofCode {b : Byte} {x : Policy} (read : Policy.ofCode b = some x) : x.code = b := by
  unfold Policy.ofCode at read
  split at read <;> cases read <;> exact BitVec.eq_of_toNat_eq (by simp [*, Policy.code])

theorem RateMode.exists_ofCode {b : Byte} : (∃ x, RateMode.ofCode b = some x) ↔ b.toNat ≤ 1 := by
  refine ⟨fun ⟨x, read⟩ => Nat.le_of_not_lt fun above => by simp [RateMode.ofCode_above above] at read, fun small => ?_⟩
  have codes : b.toNat = 0 ∨ b.toNat = 1 := by omega
  rcases codes with value | value <;> simp [RateMode.ofCode, value]

theorem Rate.exists_ofCode {b : Byte} : (∃ x, Rate.ofCode b = some x) ↔ b.toNat ≤ 3 := by
  refine ⟨fun ⟨x, read⟩ => Nat.le_of_not_lt fun above => by simp [Rate.ofCode_above above] at read, fun small => ?_⟩
  have codes : b.toNat = 0 ∨ b.toNat = 1 ∨ b.toNat = 2 ∨ b.toNat = 3 := by omega
  rcases codes with value | value | value | value <;> simp [Rate.ofCode, value]

theorem LineMode.exists_ofCode {b : Byte} : (∃ x, LineMode.ofCode b = some x) ↔ b.toNat ≤ 2 := by
  refine ⟨fun ⟨x, read⟩ => Nat.le_of_not_lt fun above => by simp [LineMode.ofCode_above above] at read, fun small => ?_⟩
  have codes : b.toNat = 0 ∨ b.toNat = 1 ∨ b.toNat = 2 := by omega
  rcases codes with value | value | value <;> simp [LineMode.ofCode, value]

theorem QuietSelection.exists_ofCode {b : Byte} : (∃ x, QuietSelection.ofCode b = some x) ↔ b.toNat ≤ 3 := by
  refine ⟨fun ⟨x, read⟩ => Nat.le_of_not_lt fun above => by simp [QuietSelection.ofCode_above above] at read,
    fun small => ?_⟩
  have codes : b.toNat = 0 ∨ b.toNat = 1 ∨ b.toNat = 2 ∨ b.toNat = 3 := by omega
  rcases codes with value | value | value | value <;> simp [QuietSelection.ofCode, value]

theorem Policy.exists_ofCode {b : Byte} : (∃ x, Policy.ofCode b = some x) ↔ b.toNat ≤ 1 := by
  refine ⟨fun ⟨x, read⟩ => Nat.le_of_not_lt fun above => by simp [Policy.ofCode_above above] at read, fun small => ?_⟩
  have codes : b.toNat = 0 ∨ b.toNat = 1 := by omega
  rcases codes with value | value <;> simp [Policy.ofCode, value]

/-! ## Windows (R26, R178) -/

theorem labelOf_within {w : Word16} (small : w.toNat ≤ 16383) : labelOf w = some (w.setWidth 14) := if_pos (by omega)

/-- A word that is a label has no bit outside a mask exactly when the label has none. -/
theorem within_iff {w m : Word16} (small : w.toNat ≤ 16383) :
    within (w.setWidth 14) (m.setWidth 14) = true ↔ w &&& ~~~m = 0 := by
  have high {i : Nat} (above : 14 ≤ i) : w.getLsbD i = false :=
    Nat.testBit_lt_two_pow ((Nat.lt_succ_of_le small).trans_le (Nat.pow_le_pow_right (n := 2) (by decide) above))
  simp only [within, beq_iff_eq]
  refine ⟨fun h => BitVec.eq_of_getLsbD_eq fun i inside => ?_, fun h => BitVec.eq_of_getLsbD_eq fun i inside => ?_⟩
  · by_cases below : i < 14
    · simpa [below, inside] using congrArg (BitVec.getLsbD · i) h
    · simp [high (Nat.le_of_not_lt below)]
  · simpa [inside, show i < 16 by omega] using congrArg (BitVec.getLsbD · i) h

/-- What the seven octets of a window may be. -/
def windowFits (image : List Byte) (o : Nat) : Prop :=
  (∀ k ∈ [o, o + 2, o + 4], (wordAt image k).toNat ≤ 16383) ∧
    wordAt image o &&& ~~~wordAt image (o + 2) = 0 ∧ wordAt image (o + 4) &&& ~~~wordAt image (o + 2) = 0 ∧
    (octetAt image (o + 6)).toNat < 16

theorem windowFits_iff (image : List Byte) (o : Nat) :
    windowFits image o ↔ ∃ w, windowAt image o = some w ∧ w.inMask = true := by
  constructor
  · rintro ⟨small, base, map, attributes⟩
    have base_ := small o (by simp)
    have mask_ := small (o + 2) (by simp)
    have map_ := small (o + 4) (by simp)
    let at' := octetAt image (o + 6)
    refine ⟨⟨at'.getLsbD 0, (wordAt image (o + 2)).setWidth 14, (wordAt image o).setWidth 14,
      (wordAt image (o + 4)).setWidth 14, at'.getLsbD 1, at'.getLsbD 2, at'.getLsbD 3⟩, ?_, ?_⟩
    · simp only [windowAt, labelOf_within base_, labelOf_within mask_, labelOf_within map_]
      exact if_pos attributes
    · exact Bool.and_eq_true_iff.2 ⟨(within_iff base_).2 base, (within_iff map_).2 map⟩
  · rintro ⟨w, read, inMask⟩
    have label {k : Nat} {l : Label} (here : labelOf (wordAt image k) = some l) :
        (wordAt image k).toNat ≤ 16383 ∧ l = (wordAt image k).setWidth 14 := by
      have small : (wordAt image k).toNat ≤ 16383 := Nat.le_of_not_lt fun above => by
        simp [labelOf_above above] at here
      exact ⟨small, (Option.some.inj ((labelOf_within small).symm.trans here)).symm⟩
    unfold windowAt at read
    split at read
    · next base mask map readBase readMask readMap =>
      dsimp only at read
      split at read
      · next attributes =>
        obtain rfl := Option.some.inj read
        obtain ⟨baseSmall, rfl⟩ := label readBase
        obtain ⟨maskSmall, rfl⟩ := label readMask
        obtain ⟨mapSmall, rfl⟩ := label readMap
        obtain ⟨baseIn, mapIn⟩ := Bool.and_eq_true_iff.1 inMask
        refine ⟨?_, (within_iff baseSmall).1 baseIn, (within_iff mapSmall).1 mapIn, attributes⟩
        simp [baseSmall, maskSmall, mapSmall]
      · cases read
    · cases read

theorem windowsAt_succ {image : List Byte} {k count : Nat} {ws : List Window} :
    windowsAt image k (count + 1) = some ws ↔
      windowFits image k ∧ ∃ w rest, windowAt image k = some w ∧ windowsAt image (k + 7) count = some rest ∧ ws = w :: rest := by
  rw [windowFits_iff, windowsAt]
  cases hw : windowAt image k with
  | none => simp
  | some w =>
    cases hr : windowsAt image (k + 7) count with
    | none => simp
    | some rest =>
      by_cases inMask : w.inMask = true
      · simp only [inMask, if_true, Option.some.injEq, exists_eq_left', true_and]
        exact ⟨fun same => ⟨w, rest, rfl, rfl, same.symm⟩, fun ⟨_, _, head, tail, same⟩ => head ▸ tail ▸ same.symm⟩
      · simp [inMask]

theorem windowsAt_read {image : List Byte} {k count : Nat} {ws : List Window} (read : windowsAt image k count = some ws) :
    ws.length = count ∧ ∀ j, j < count → ws[j]? = windowAt image (k + 7 * j) := by
  induction count generalizing k ws with
  | zero => cases read; exact ⟨rfl, fun _ none_ => absurd none_ (Nat.not_lt_zero _)⟩
  | succ count ih =>
    obtain ⟨_, w, rest, first, later, rfl⟩ := windowsAt_succ.1 read
    obtain ⟨length, each⟩ := ih later
    refine ⟨congrArg (· + 1) length, fun j inside => ?_⟩
    cases j with
    | zero => exact first.symm
    | succ j =>
      rw [List.getElem?_cons_succ, each j (Nat.lt_of_succ_lt_succ inside), show k + 7 * (j + 1) = k + 7 + 7 * j by omega]

theorem exists_windowsAt {image : List Byte} {k count : Nat} :
    (∃ ws, windowsAt image k count = some ws) ↔ ∀ j, j < count → windowFits image (k + 7 * j) := by
  induction count generalizing k with
  | zero => exact ⟨fun _ _ none_ => absurd none_ (Nat.not_lt_zero _), fun _ => ⟨[], rfl⟩⟩
  | succ count ih =>
    have shifted (j : Nat) : k + 7 + 7 * j = k + 7 * (j + 1) := by omega
    constructor
    · rintro ⟨ws, read⟩ j inside
      obtain ⟨fits, _, rest, _, later, _⟩ := windowsAt_succ.1 read
      cases j with
      | zero => exact fits
      | succ j => exact shifted j ▸ ih.1 ⟨rest, later⟩ j (Nat.lt_of_succ_lt_succ inside)
    · intro fits
      have first : windowFits image k := fits 0 (Nat.succ_pos _)
      obtain ⟨w, readFirst, _⟩ := (windowFits_iff image k).1 first
      obtain ⟨rest, later⟩ := (ih (k := k + 7)).2 fun j inside => (shifted j).symm ▸ fits (j + 1) (Nat.succ_lt_succ inside)
      exact ⟨w :: rest, windowsAt_succ.2 ⟨first, w, rest, readFirst, later, rfl⟩⟩

/-! ## Port sections (Table 12-7) -/

theorem portSectionAt_eq_some {image : List Byte} {k : Nat} {x : PortSection} :
    portSectionAt image k = some x ↔
      poolSettingsOk (octetAt image k).toNat (octetAt image (k + 1)).toNat ∧
        ∃ policy ws, Policy.ofCode (octetAt image (k + 2)) = some policy ∧ windowsAt image (k + 6) 8 = some ws ∧
          x = ⟨(octetAt image k).toNat, (octetAt image (k + 1)).toNat, policy, 10 * (octetAt image (k + 3)).toNat,
            wordAt image (k + 4), ws⟩ := by
  unfold portSectionAt poolSettingsOk Config.windowCount
  cases hp : Policy.ofCode (octetAt image (k + 2)) with
  | none => simp
  | some policy =>
    cases hw : windowsAt image (k + 6) 8 with
    | none => simp
    | some ws => simp [eq_comm]

theorem exists_portSectionAt {image : List Byte} {k : Nat} :
    (∃ x, portSectionAt image k = some x) ↔
      poolSettingsOk (octetAt image k).toNat (octetAt image (k + 1)).toNat ∧ (octetAt image (k + 2)).toNat ≤ 1 ∧
        ∀ j, j < 8 → windowFits image (k + 6 + 7 * j) := by
  rw [← Policy.exists_ofCode, ← exists_windowsAt]
  constructor
  · rintro ⟨x, read⟩
    obtain ⟨ok, policy, ws, readPolicy, readWindows, _⟩ := portSectionAt_eq_some.1 read
    exact ⟨ok, ⟨policy, readPolicy⟩, ws, readWindows⟩
  · rintro ⟨ok, ⟨policy, readPolicy⟩, ws, readWindows⟩
    exact ⟨_, portSectionAt_eq_some.2 ⟨ok, policy, ws, readPolicy, readWindows, rfl⟩⟩

/-- Where the section of each port begins in an image. -/
def sectionStart : Port → Nat
  | .a => 12
  | .b => 74
  | .c => 136
  | .d => 198

theorem portSections_eq_some {image : List Byte} {q : Quad PortSection} :
    portSections image = some q ↔ ∀ p, portSectionAt image (sectionStart p) = some (q.get p) := by
  have perPort : (∀ p, portSectionAt image (sectionStart p) = some (q.get p)) ↔
      portSectionAt image 12 = some q.a ∧ portSectionAt image 74 = some q.b ∧ portSectionAt image 136 = some q.c ∧
        portSectionAt image 198 = some q.d :=
    ⟨fun each => ⟨each .a, each .b, each .c, each .d⟩, fun ⟨a, b, c, d⟩ p => by cases p <;> assumption⟩
  rw [perPort]
  unfold portSections
  split
  · next a b c d readA readB readC readD =>
    rw [readA, readB, readC, readD, Option.some.injEq]
    cases q
    simp only [Quad.mk.injEq, Option.some.injEq]
  · next none_ => exact ⟨nofun, fun ⟨a, b, c, d⟩ => (none_ _ _ _ _ a b c d).elim⟩

theorem exists_portSections {image : List Byte} :
    (∃ q, portSections image = some q) ↔ ∀ p, ∃ x, portSectionAt image (sectionStart p) = some x := by
  constructor
  · exact fun ⟨q, read⟩ p => ⟨q.get p, portSections_eq_some.1 read p⟩
  · intro each
    obtain ⟨sections, read⟩ := Classical.axiomOfChoice each
    exact ⟨⟨sections .a, sections .b, sections .c, sections .d⟩, portSections_eq_some.2 fun p => by cases p <;> exact read _⟩

/-! ## The whole image -/

theorem headerOk_iff (image : List Byte) :
    headerOk image = true ↔ wordAt image 0 = 0x4A5A#16 ∧ (octetAt image 2).toNat = 1 ∧ (octetAt image 3).toNat = 4 ∧
      (octetAt image 11).toNat = 0 := by
  simp only [headerOk, Bool.and_eq_true, beq_iff_eq, ← BitVec.toNat_inj, and_assoc]
  rfl

theorem checkHolds_iff (image : List Byte) :
    checkHolds image = true ↔ (((image.take 260).map BitVec.toNat).sum + (wordAt image 260).toNat) % 65536 = 0 :=
  beq_iff_eq

/-- The silence time that an image gives is in its range. -/
def silenceOk (image : List Byte) : Prop := 50 ≤ (wordAt image 8).toNat ∧ (wordAt image 8).toNat ≤ 5000

theorem readImage_eq_some {image : List Byte} {i : Image} (whole : image.length = 262) :
    readImage image = some i ↔
      headerOk image = true ∧ checkHolds image = true ∧ silenceOk image ∧ flagOf (octetAt image 4) = some i.lineOn ∧
        RateMode.ofCode (octetAt image 5) = some i.rateMode ∧ Rate.ofCode (octetAt image 6) = some i.rate ∧
        LineMode.ofCode (octetAt image 7) = some i.mode ∧ QuietSelection.ofCode (octetAt image 10) = some i.quiet ∧
        portSections image = some i.sections ∧ i.silenceTime = (wordAt image 8).toNat := by
  unfold readImage
  by_cases outer : headerOk image = true ∧ checkHolds image = true
  · rw [if_pos ⟨whole, outer⟩]
    split
    · next readOn readMode readRate readLine readQuiet readSections =>
      rw [readOn, readMode, readRate, readLine, readQuiet, readSections]
      by_cases range : silenceOk image
      · rw [if_pos (c := 50 ≤ (wordAt image 8).toNat ∧ (wordAt image 8).toNat ≤ 5000) range]
        cases i
        simp only [outer, range, Option.some.injEq, Image.mk.injEq, true_and]
        constructor
        · rintro ⟨rfl, rfl, rfl, rfl, rfl, rfl, rfl⟩
          simp
        · rintro ⟨rfl, rfl, rfl, rfl, rfl, rfl, rfl⟩
          simp
      · rw [if_neg (c := 50 ≤ (wordAt image 8).toNat ∧ (wordAt image 8).toNat ≤ 5000) range]
        simp [range]
    · next none_ =>
      exact ⟨nofun, fun ⟨_, _, _, on, mode, rate, line, quiet, sections, _⟩ =>
        (none_ _ _ _ _ _ _ on mode rate line quiet sections).elim⟩
  · rw [if_neg fun h => outer h.2]
    exact ⟨nofun, fun ⟨header, check, _⟩ => (outer ⟨header, check⟩).elim⟩

theorem exists_flagOf {b : Byte} : (∃ x, flagOf b = some x) ↔ b.toNat ≤ 1 := by
  refine ⟨fun ⟨x, read⟩ => (flagOf_eq_some.1 read).1, fun small => ⟨decide (b.toNat = 1), ?_⟩⟩
  exact flagOf_eq_some.2 ⟨small, decide_eq_true_iff⟩

theorem exists_readImage {image : List Byte} (whole : image.length = 262) :
    (∃ i, readImage image = some i) ↔
      headerOk image = true ∧ checkHolds image = true ∧ silenceOk image ∧ (octetAt image 4).toNat ≤ 1 ∧
        (octetAt image 5).toNat ≤ 1 ∧ (octetAt image 6).toNat ≤ 3 ∧ (octetAt image 7).toNat ≤ 2 ∧
        (octetAt image 10).toNat ≤ 3 ∧ ∀ p, ∃ x, portSectionAt image (sectionStart p) = some x := by
  rw [← exists_flagOf (b := octetAt image 4), ← RateMode.exists_ofCode (b := octetAt image 5),
    ← Rate.exists_ofCode (b := octetAt image 6), ← LineMode.exists_ofCode (b := octetAt image 7),
    ← QuietSelection.exists_ofCode (b := octetAt image 10), ← exists_portSections]
  simp only [readImage_eq_some whole]
  constructor
  · rintro ⟨i, header, check, silence, on, mode, rate, line, quiet, sections, _⟩
    exact ⟨header, check, silence, ⟨_, on⟩, ⟨_, mode⟩, ⟨_, rate⟩, ⟨_, line⟩, ⟨_, quiet⟩, _, sections⟩
  · rintro ⟨header, check, silence, ⟨on, readOn⟩, ⟨mode, readMode⟩, ⟨rate, readRate⟩, ⟨line, readLine⟩,
      ⟨quiet, readQuiet⟩, sections, readSections⟩
    exact ⟨⟨on, mode, rate, line, (wordAt image 8).toNat, quiet, sections⟩,
      header, check, silence, readOn, readMode, readRate, readLine, readQuiet, readSections, rfl⟩

theorem portSectionAt_read {image : List Byte} {k : Nat} {x : PortSection} (read : portSectionAt image k = some x) :
    x.reserve = (octetAt image k).toNat ∧ x.limit = (octetAt image (k + 1)).toNat ∧
      x.policy.code = octetAt image (k + 2) ∧ x.presenceInterval = 10 * (octetAt image (k + 3)).toNat ∧
      x.mask = wordAt image (k + 4) ∧ x.windows.length = 8 ∧
      ∀ j, j < 8 → x.windows[j]? = windowAt image (k + 6 + 7 * j) := by
  obtain ⟨_, policy, ws, readPolicy, readWindows, rfl⟩ := portSectionAt_eq_some.1 read
  exact ⟨rfl, rfl, Policy.code_of_ofCode readPolicy, rfl, rfl, windowsAt_read readWindows⟩

/-- Settles O53: an image is read exactly when each of its parts is, and each part is read exactly when its octets are in
range. -/
theorem imageChecked : Obligations.ImageChecked := by
  unfold Obligations.ImageChecked
  intro image whole at' windowOk start sectionOk
  have starts : start = sectionStart := funext fun p => by cases p <;> rfl
  have sections (p : Port) : (∃ x, portSectionAt image (sectionStart p) = some x) ↔ sectionOk (start p) := by
    rw [starts, exists_portSectionAt]
    simp only [poolSettingsOk, and_assoc]
    rfl
  refine ⟨?_, fun i read => ?_⟩
  · rw [exists_readImage whole, headerOk_iff, checkHolds_iff]
    simp only [sections, silenceOk]
    constructor
    · rintro ⟨⟨mark, version, count, spare⟩, check, ⟨low, high⟩, on, mode, rate, line, quiet, each⟩
      exact ⟨mark, version, count, spare, check, on, mode, rate, line, quiet, low, high, each⟩
    · rintro ⟨mark, version, count, spare, check, on, mode, rate, line, quiet, low, high, each⟩
      exact ⟨⟨mark, version, count, spare⟩, check, ⟨low, high⟩, on, mode, rate, line, quiet, each⟩
  · obtain ⟨_, _, _, on, mode, rate, line, quiet, readSections, silence⟩ := (readImage_eq_some whole).1 read
    refine ⟨(flagOf_eq_some.1 on).2, RateMode.code_of_ofCode mode, Rate.code_of_ofCode rate,
      LineMode.code_of_ofCode line, silence, quiet, fun p => ?_⟩
    rw [starts]
    exact portSectionAt_read (portSections_eq_some.1 readSections p)

end Sys2Proof.Machine
